-- ==== Sys2Proof/Word.lean ====
section
/-! DEFINITION. The word types of the engine (spec/00_scope.md R7, R8). All values are unsigned. -/

namespace Sys2Proof

/-- A byte: one channel level, one packet byte, one template byte (R7). -/
abbrev Byte := BitVec 8

/-- A 32-bit IPv4 address, the first dotted-decimal octet in bits 31:24 (R7, R66). -/
abbrev Ip := BitVec 32

/-- The 16-bit index of a host access: a CSR number or a byte index (R60, R92). -/
abbrev Index := BitVec 16

/-- A 32-bit CSR value, write datum or read datum (R7, R92). -/
abbrev Word32 := BitVec 32

/-- A 16-bit Art-Net opcode (R83). -/
abbrev Opcode := BitVec 16

/-- A 64-bit host operation word (R92). -/
abbrev HostWord := BitVec 64

end Sys2Proof
end

