-- ==== Sys2Proof/Config.lean ====
section
/-! DEFINITION. The implementation parameter and the named constants of spec/00_scope.md R6. -/

namespace Sys2Proof.Config

/-- How far `RX_CAP` lies above its least value. It has no body: a free value (entry 1). -/
opaque rxCapAbove : Fin 65006

/-- `RX_CAP`, the capacity of the receive buffer in bytes, `OPEN` with `530 <= RX_CAP <= 65535` (R6, entry 1).
Irreducible, so that no tactic unfolds a comparison with the 530; the kernel evaluates it as it stands. -/
@[irreducible] def rxCap : Nat := rxCapAbove.val + 530

/-- `UNIVERSE_SIZE`: bytes of each level buffer (R6). -/
@[simp] abbrev universeSize : Nat := 512

/-- `MAGIC`: "Art-Net" and a zero byte (R6, R82). -/
def magic : List Byte := [0x41#8, 0x72#8, 0x74#8, 0x2D#8, 0x4E#8, 0x65#8, 0x74#8, 0x00#8]

/-- `OP_DMX` (R6). -/
@[simp] abbrev opDmx : Opcode := 0x5000#16
/-- `OP_POLL` (R6). -/
@[simp] abbrev opPoll : Opcode := 0x2000#16
/-- `OP_ADDRESS` (R6). -/
@[simp] abbrev opAddress : Opcode := 0x6000#16
/-- `OP_POLLREPLY` (R6). -/
@[simp] abbrev opPollReply : Opcode := 0x2100#16
/-- `OP_NOT_ARTNET`, the sentinel that goes with `valid = false` (R6, R125). -/
@[simp] abbrev opNotArtNet : Opcode := 0x0000#16

/-- `MIN_VERSION`, compared with packet byte 11 (R6, R128, R129). -/
@[simp] abbrev minVersion : Byte := 14#8
/-- The shortest datagram with a whole header (R124). -/
@[simp] abbrev headerLen : Nat := 10
/-- `POLL_MIN_LEN` (R6, R128). -/
@[simp] abbrev pollMinLen : Nat := 14
/-- `ADDRESS_MIN_LEN` (R6, R129). -/
@[simp] abbrev addressMinLen : Nat := 107
/-- `DMX_HEADER_LEN` (R6, R140). -/
@[simp] abbrev dmxHeaderLen : Nat := 18

/-- `CMD_CANCEL_MERGE` (R6, R90). -/
@[simp] abbrev cmdCancelMerge : Byte := 0x01#8
/-- `CMD_CLEAR_BUFFER` (R6, R90). -/
@[simp] abbrev cmdClearBuffer : Byte := 0x90#8
/-- `NO_CHANGE`, the sentinel of the universe and subnet fields (R6, R182, R183). -/
@[simp] abbrev noChange : Byte := 0x7F#8

/-- `POLLREPLY_LEN`: bytes of the template and of every reply (R6, R88). -/
@[simp] abbrev pollReplyLen : Nat := 239
/-- `ARTNET_PORT`, the UDP port replies go to (R6, R203). -/
@[simp] abbrev artnetPort : BitVec 16 := 6454#16
/-- `PR_PA_OFFSET`, the port-address byte of the reply (R6, R201). -/
@[simp] abbrev prPaOffset : Nat := 190

end Sys2Proof.Config
end

