-- ==== Sys2Proof/Syntax.lean ====
section
/-! DEFINITION. The instructions: one constructor per row of spec/opcode_table.json, and the three things the engine
exchanges with the outside (host words, received datagrams, transmit requests). -/

namespace Sys2Proof

/-- What the datagram port delivers for one `INGEST` (R95): the byte count `LEN` it announces, the sender's IPv4
address, and the bytes. That `LEN` is the number of bytes is a duty of the host interface (R252(b)), not of this type. -/
structure Datagram where
  len    : BitVec 16
  sender : Ip
  bytes  : List Byte
  deriving DecidableEq, Repr

/-- One transmit request `TX(dest, port, bytes)` (R10, R72). -/
structure TxRequest where
  dest  : Ip
  port  : BitVec 16
  bytes : List Byte
  deriving DecidableEq, Repr

/-- One constructor per row of spec/opcode_table.json.

Rows of the format artnet_datagram carry the sender and the packet bytes after the ten key bytes (`body`, the bytes
10.. of R84, R86, R87). Rows of the format artaddress_command carry the bytes 10..105 (`front`), the command byte where
the row leaves it open, and the bytes 107.. (`tail`). Rows of the format host64 carry the fields of R92 they use. -/
inductive Instr where
  /-- `ArtDMX`: opcode 0x5000 (R84, R127). -/
  | artDMX (sender : Ip) (body : List Byte)
  /-- `ArtPoll`: opcode 0x2000 (R86, R128). -/
  | artPoll (sender : Ip) (body : List Byte)
  /-- `ArtAddress`: opcode 0x6000 (R87, R129). -/
  | artAddress (sender : Ip) (body : List Byte)
  /-- `ArtPollReply_received`: opcode 0x2100 (R130). -/
  | artPollReplyReceived (sender : Ip) (body : List Byte)
  /-- `ART_UNKNOWN_OPCODE`: a valid header with any other opcode (R130). -/
  | artUnknownOpcode (sender : Ip) (opcode : Opcode) (body : List Byte)
  /-- `NOT_ARTNET`: no valid header (R124); all its bytes. -/
  | notArtNet (sender : Ip) (bytes : List Byte)
  /-- `ArtAddress_CancelMerge`: an ArtAddress packet with command 0x01 (R152, R184). -/
  | artAddressCancelMerge (sender : Ip) (front tail : List Byte)
  /-- `ArtAddress_ClearBuffer`: an ArtAddress packet with command 0x90 (R153, R184). -/
  | artAddressClearBuffer (sender : Ip) (front tail : List Byte)
  /-- `ArtAddress_NoCommand`: an ArtAddress packet with any other command byte (R184). -/
  | artAddressNoCommand (sender : Ip) (front : List Byte) (command : Byte) (tail : List Byte)
  /-- `ArtPollReply_emitted`: the poll-reply encoder, run for a sender (R200 to R204, entry 10). -/
  | artPollReplyEmitted (sender : Ip)
  /-- `nop`: OP 0x0 (R228). -/
  | nop
  /-- `csrr`: OP 0x1 (R220). -/
  | csrRead (idx : Index)
  /-- `csrw`: OP 0x2 (R221). -/
  | csrWrite (idx : Index) (data : Word32)
  /-- `outr`: OP 0x3 (R222). -/
  | outRead (idx : Index)
  /-- `outw`: OP 0x4, `DATA[7:0]` (R223). -/
  | outWrite (idx : Index) (byte : Byte)
  /-- `tplr`: OP 0x5 (R224). -/
  | tplRead (idx : Index)
  /-- `tplw`: OP 0x6, `DATA[7:0]` (R225). -/
  | tplWrite (idx : Index) (byte : Byte)
  /-- `rxr`: OP 0x7 (R226). -/
  | rxRead (idx : Index)
  /-- `ingest`: OP 0x8, `PRESENT = DATA[0]` (R227). -/
  | ingest (present : Bool)
  /-- `reserved_op_0x9` (R229). -/
  | reservedOp9
  /-- `reserved_op_0xA` (R229). -/
  | reservedOpA
  /-- `reserved_op_0xB` (R229). -/
  | reservedOpB
  /-- `reserved_op_0xC` (R229). -/
  | reservedOpC
  /-- `reserved_op_0xD` (R229). -/
  | reservedOpD
  /-- `reserved_op_0xE` (R229). -/
  | reservedOpE
  /-- `reserved_op_0xF` (R229). -/
  | reservedOpF
  deriving DecidableEq, Repr

/-- The encoding of an instruction, one constructor per format of spec/opcode_table.json (R80). -/
inductive Encoding where
  /-- host64: the operation word (R92). -/
  | host64 (w : HostWord)
  /-- artnet_datagram: the datagram, keyed by its bytes 0..9. -/
  | artnetDatagram (d : Datagram)
  /-- artaddress_command: the datagram, keyed by its bytes 0..9 and its byte 106. -/
  | artAddressCommand (d : Datagram)
  /-- emitted datagram: its destination and its key bytes 0..9 (the other 229 bytes are the template's, R204). -/
  | emittedDatagram (dest : Ip) (key : List Byte)
  deriving DecidableEq, Repr

end Sys2Proof
end

