-- ==== Sys2Proof/WellFormed.lean ====
section
/-! DEFINITION. Which instructions the encodings of spec/30_encoding.md can express. -/

namespace Sys2Proof

/-- A datagram's byte count fits the 16-bit `LEN` of the port (R95). -/
def fitsLen (n : Nat) : Bool := n ≤ 65535

/-- The bytes carry a valid Art-Net header: ten bytes, the first eight the magic (R124). -/
def hasHeader (bytes : List Byte) : Bool :=
  decide (Config.headerLen ≤ bytes.length) && decide (bytes.take 8 = Config.magic)

/-- The instruction is one that its encoding can express. Host words express every operand (R92); a datagram row's
bytes must fit `LEN` and must not belong to another row (R89, R90, R124). -/
def Instr.wellFormed : Instr → Bool
  | .artDMX _ body | .artPoll _ body | .artAddress _ body | .artPollReplyReceived _ body =>
      fitsLen (Config.headerLen + body.length)
  | .artUnknownOpcode _ op body =>
      fitsLen (Config.headerLen + body.length) && decide (op ≠ Config.opDmx) && decide (op ≠ Config.opPoll)
        && decide (op ≠ Config.opAddress) && decide (op ≠ Config.opPollReply)
  | .notArtNet _ bytes => fitsLen bytes.length && !hasHeader bytes
  | .artAddressCancelMerge _ front tail | .artAddressClearBuffer _ front tail =>
      decide (front.length = 96) && fitsLen (Config.addressMinLen + tail.length)
  | .artAddressNoCommand _ front c tail =>
      decide (front.length = 96) && fitsLen (Config.addressMinLen + tail.length)
        && decide (c ≠ Config.cmdCancelMerge) && decide (c ≠ Config.cmdClearBuffer)
  | .artPollReplyEmitted _ | .nop | .csrRead _ | .csrWrite _ _ | .outRead _ | .outWrite _ _ | .tplRead _
  | .tplWrite _ _ | .rxRead _ | .ingest _ | .reservedOp9 | .reservedOpA | .reservedOpB | .reservedOpC
  | .reservedOpD | .reservedOpE | .reservedOpF => true

/-- The instruction is a host operation (the format host64 of the opcode table). -/
def Instr.isHostOp : Instr → Bool
  | .nop | .csrRead _ | .csrWrite _ _ | .outRead _ | .outWrite _ _ | .tplRead _ | .tplWrite _ _ | .rxRead _
  | .ingest _ | .reservedOp9 | .reservedOpA | .reservedOpB | .reservedOpC | .reservedOpD | .reservedOpE
  | .reservedOpF => true
  | .artDMX _ _ | .artPoll _ _ | .artAddress _ _ | .artPollReplyReceived _ _ | .artUnknownOpcode _ _ _
  | .notArtNet _ _ | .artAddressCancelMerge _ _ _ | .artAddressClearBuffer _ _ _ | .artAddressNoCommand _ _ _ _
  | .artPollReplyEmitted _ => false

end Sys2Proof
end

