-- ==== Sys2Proof/Decode.lean ====
section
/-! DEFINITION. The decoders of the four formats of spec/opcode_table.json and, after them, the encoder, both from the
tables of spec/30_encoding.md. -/

namespace Sys2Proof

/-! ## Fields -/

/-- `OP`, bits 63:60 of a host word (R92). -/
def opField (w : HostWord) : BitVec 4 := w.extractLsb' 60 4

/-- `IDX`, bits 55:40 (R92). -/
def idxField (w : HostWord) : Index := w.extractLsb' 40 16

/-- `DATA`, bits 31:0 (R92). -/
def dataField (w : HostWord) : Word32 := w.extractLsb' 0 32

/-- `DATA[7:0]`, the datum of a byte write (R92). -/
def byteField (w : HostWord) : Byte := w.extractLsb' 0 8

/-- `DATA[0]`, `PRESENT` of `INGEST` (R92). -/
def presentField (w : HostWord) : Bool := w.getLsbD 0

/-- The byte of a packet at an offset (R9). -/
def packetByte (bytes : List Byte) (i : Nat) : Byte := bytes.getD i 0#8

/-- The little-endian 16-bit opcode from its two bytes, low byte first (R83). -/
def opcodeOfBytes (lo hi : Byte) : Opcode := hi ++ lo

/-- The two wire bytes of an opcode, low byte first (R83). -/
def opcodeBytes (op : Opcode) : List Byte := [op.extractLsb' 0 8, op.extractLsb' 8 8]

/-! ## Decoding -/

/-- The host operation of a word (R93). Every word has one: the reserved codes 0x9 to 0xF are operations too, and the
reserved bits 59:56 and 39:32 are ignored (R94). -/
def decodeWord (w : HostWord) : Instr :=
  match (opField w).toNat with
  | 0 => .nop
  | 1 => .csrRead (idxField w)
  | 2 => .csrWrite (idxField w) (dataField w)
  | 3 => .outRead (idxField w)
  | 4 => .outWrite (idxField w) (byteField w)
  | 5 => .tplRead (idxField w)
  | 6 => .tplWrite (idxField w) (byteField w)
  | 7 => .rxRead (idxField w)
  | 8 => .ingest (presentField w)
  | 9 => .reservedOp9
  | 10 => .reservedOpA
  | 11 => .reservedOpB
  | 12 => .reservedOpC
  | 13 => .reservedOpD
  | 14 => .reservedOpE
  | _ => .reservedOpF

/-- The row of the format artnet_datagram that a received datagram belongs to: exact opcodes first, then any other
opcode, then no header (R89, R124, the table's priority). -/
def decodeDatagram (d : Datagram) : Instr :=
  if Config.headerLen ≤ d.bytes.length ∧ d.bytes.take 8 = Config.magic then
    let op := opcodeOfBytes (packetByte d.bytes 8) (packetByte d.bytes 9)
    let body := d.bytes.drop 10
    if op = Config.opDmx then .artDMX d.sender body
    else if op = Config.opPoll then .artPoll d.sender body
    else if op = Config.opAddress then .artAddress d.sender body
    else if op = Config.opPollReply then .artPollReplyReceived d.sender body
    else .artUnknownOpcode d.sender op body
  else .notArtNet d.sender d.bytes

/-- Why a byte string belongs to no row of a format. -/
inductive DecodeError where
  /-- artaddress_command: the datagram is no ArtAddress packet. -/
  | notArtAddress
  /-- artaddress_command: the ArtAddress packet is too short to have a byte 106. -/
  | noCommandByte
  /-- emitted datagram: the key bytes are not those of an ArtPollReply. -/
  | notPollReply
  deriving DecidableEq, Repr

/-- The row of the format artaddress_command that an ArtAddress packet belongs to, by its byte 106 (R90). -/
def decodeCommand (d : Datagram) : Except DecodeError Instr :=
  if Config.headerLen ≤ d.bytes.length ∧ d.bytes.take 8 = Config.magic
      ∧ opcodeOfBytes (packetByte d.bytes 8) (packetByte d.bytes 9) = Config.opAddress then
    if Config.addressMinLen ≤ d.bytes.length then
      let front := (d.bytes.drop 10).take 96
      let tail := d.bytes.drop 107
      let c := packetByte d.bytes 106
      if c = Config.cmdCancelMerge then .ok (.artAddressCancelMerge d.sender front tail)
      else if c = Config.cmdClearBuffer then .ok (.artAddressClearBuffer d.sender front tail)
      else .ok (.artAddressNoCommand d.sender front c tail)
    else .error .noCommandByte
  else .error .notArtAddress

/-- The row of the emitted datagram, by its key bytes 0..9 (R88). -/
def decodeEmitted (dest : Ip) (bytes : List Byte) : Except DecodeError Instr :=
  if bytes.take 10 = Config.magic ++ opcodeBytes Config.opPollReply then .ok (.artPollReplyEmitted dest)
  else .error .notPollReply

/-- The decoder, one case per format of the opcode table. -/
def decode : Encoding → Except DecodeError Instr
  | .host64 w => .ok (decodeWord w)
  | .artnetDatagram d => .ok (decodeDatagram d)
  | .artAddressCommand d => decodeCommand d
  | .emittedDatagram dest key => decodeEmitted dest key

/-! ## Encoding -/

/-- The host word of an operation code, an index and a datum; reserved bits 0 (R92, R97). -/
def hostWord (op : BitVec 4) (idx : Index) (data : Word32) : HostWord := op ++ 0#4 ++ idx ++ 0#8 ++ data

/-- An Art-Net packet: magic, opcode low byte first, and the bytes from offset 10 on (R81). -/
def packet (op : Opcode) (body : List Byte) : List Byte := Config.magic ++ opcodeBytes op ++ body

/-- An ArtAddress packet with its command byte at offset 106, when `front` is the 96 bytes 10..105 (R87). -/
def addressPacket (front : List Byte) (command : Byte) (tail : List Byte) : List Byte :=
  packet Config.opAddress (front ++ command :: tail)

/-- The datagram of a sender and bytes, with `LEN` their number (R95). DESIGN CHOICE (entry 15): of a number above 65535,
which no `LEN` can be, the low 16 bits are taken. -/
def datagramOf (sender : Ip) (bytes : List Byte) : Datagram := ⟨BitVec.ofNat 16 bytes.length, sender, bytes⟩

/-- The encoding of an instruction (R81 to R88, R92, R93). -/
def encode : Instr → Encoding
  | .artDMX sender body => .artnetDatagram (datagramOf sender (packet Config.opDmx body))
  | .artPoll sender body => .artnetDatagram (datagramOf sender (packet Config.opPoll body))
  | .artAddress sender body => .artnetDatagram (datagramOf sender (packet Config.opAddress body))
  | .artPollReplyReceived sender body => .artnetDatagram (datagramOf sender (packet Config.opPollReply body))
  | .artUnknownOpcode sender op body => .artnetDatagram (datagramOf sender (packet op body))
  | .notArtNet sender bytes => .artnetDatagram (datagramOf sender bytes)
  | .artAddressCancelMerge sender front tail =>
      .artAddressCommand (datagramOf sender (addressPacket front Config.cmdCancelMerge tail))
  | .artAddressClearBuffer sender front tail =>
      .artAddressCommand (datagramOf sender (addressPacket front Config.cmdClearBuffer tail))
  | .artAddressNoCommand sender front c tail => .artAddressCommand (datagramOf sender (addressPacket front c tail))
  | .artPollReplyEmitted sender => .emittedDatagram sender (packet Config.opPollReply [])
  | .nop => .host64 (hostWord 0x0#4 0 0)
  | .csrRead idx => .host64 (hostWord 0x1#4 idx 0)
  | .csrWrite idx data => .host64 (hostWord 0x2#4 idx data)
  | .outRead idx => .host64 (hostWord 0x3#4 idx 0)
  | .outWrite idx byte => .host64 (hostWord 0x4#4 idx (byte.setWidth 32))
  | .tplRead idx => .host64 (hostWord 0x5#4 idx 0)
  | .tplWrite idx byte => .host64 (hostWord 0x6#4 idx (byte.setWidth 32))
  | .rxRead idx => .host64 (hostWord 0x7#4 idx 0)
  | .ingest present => .host64 (hostWord 0x8#4 0 ((BitVec.ofBool present).setWidth 32))
  | .reservedOp9 => .host64 (hostWord 0x9#4 0 0)
  | .reservedOpA => .host64 (hostWord 0xA#4 0 0)
  | .reservedOpB => .host64 (hostWord 0xB#4 0 0)
  | .reservedOpC => .host64 (hostWord 0xC#4 0 0)
  | .reservedOpD => .host64 (hostWord 0xD#4 0 0)
  | .reservedOpE => .host64 (hostWord 0xE#4 0 0)
  | .reservedOpF => .host64 (hostWord 0xF#4 0 0)

/-! ## The opcode table's numbers -/

/-- The `n` bytes of a number, most significant first: the table's numbering of packet bytes ("byte 0 is the most
significant byte of match and mask"). -/
def bytesOfNumber : Nat → Nat → List Byte
  | 0, _ => []
  | n + 1, w => bytesOfNumber n (w / 256) ++ [BitVec.ofNat 8 w]

/-- Zeros after the bytes, up to 107 of them, the longest fixed packet format (entry 11). -/
def padPacket (bytes : List Byte) : List Byte := bytes ++ List.replicate (Config.addressMinLen - bytes.length) 0#8

/-- The ArtAddress packet whose bytes 0..9 and byte 106 are the eleven given key bytes, every other byte 0. -/
def commandPacket (key : List Byte) : List Byte := key.take 10 ++ List.replicate 96 0#8 ++ key.drop 10

/-- The packet that a table number of `nbits` bits stands for: 88 bits are a key of the format artaddress_command, any
other width the first bytes of a packet (entry 11). -/
def tablePacket (nbits w : Nat) : List Byte :=
  if nbits = 88 then commandPacket (bytesOfNumber 11 w) else padPacket (bytesOfNumber (nbits / 8) w)

/-- The instruction the decoder reads from a number of the opcode table: 64 bits are a host word, 88 bits an
ArtAddress packet with a command, any other width a received datagram (entry 11). The sender, which the table gives no
bits, is 0. -/
def decodeTableWord (nbits w : Nat) : Option Instr :=
  if nbits = 64 then some (decodeWord (BitVec.ofNat 64 w))
  else if nbits = 88 then (decodeCommand (datagramOf 0#32 (tablePacket nbits w))).toOption
  else some (decodeDatagram (datagramOf 0#32 (tablePacket nbits w)))

end Sys2Proof
end

