-- ==== Sys2Proof/Machine/State.lean ====
section
/-! DEFINITION. The state of the engine (spec/10_state.md R20), its inputs and outputs, the reasons a step can stop, and
the state after reset (spec/70_reset_and_hazards.md R271). -/

namespace Sys2Proof.Machine

/-- A byte array as the list of its listed (index, byte) cells; an unlisted index reads `unlistedByte`. -/
abbrev Memory := List Host.Cell

/-- What an unlisted index reads as: the reset contents of every buffer (R271; for `RX` entry 2). -/
abbrev unlistedByte : Byte := 0#8

/-- The canonical form: indices strictly rising, and no cell equal to what an unlisted index reads as. -/
abbrev Memory.wf (m : Memory) : Prop :=
  m.Pairwise (fun c d => c.1 < d.1) ∧ ∀ c ∈ m, c.2 ≠ unlistedByte

/-- Every listed index is below the array's size. -/
abbrev Memory.below (m : Memory) (size : Nat) : Prop := ∀ c ∈ m, c.1 < size

/-- The engine's state: one field per row of R20, then the model's own fields for what passes between the engine and
its outside (entries 3, 4, 5). -/
structure State where
  /-- `NET` (R21). -/
  net : BitVec 7
  /-- `SUBNET` (R21). -/
  subnet : BitVec 4
  /-- `UNIVERSE` (R21). -/
  univ : BitVec 4
  /-- `HTP_EN` (R23). -/
  htpEn : Bool
  /-- `BCAST_EN` (R24). -/
  bcastEn : Bool
  /-- `BCAST_IP` (R24). -/
  bcastIp : Ip
  /-- `NODE_IP` (R25). -/
  nodeIp : Ip
  /-- `SRC_A` (R26). -/
  srcA : Option Ip
  /-- `SRC_B` (R26). -/
  srcB : Option Ip
  /-- `SLOTS_A` (R28). -/
  slotsA : Nat
  /-- `SLOTS_B` (R28). -/
  slotsB : Nat
  /-- `OUT_SLOTS` (R28). -/
  outSlots : Nat
  /-- `A` (R29). -/
  a : Memory
  /-- `B` (R29). -/
  b : Memory
  /-- `OUT` (R29). -/
  out : Memory
  /-- `RX` (R30). -/
  rx : Memory
  /-- `RX_LEN` (R30). -/
  rxLen : Nat
  /-- `TPL` (R31). -/
  tpl : Memory
  /-- `RESULT`, the flag `DMX_CHANGED` (R32). -/
  result : Bool
  /-- `RDATA` of the last operation (R92, entry 3). -/
  rdata : Word32
  /-- The transmit stream, oldest request first (R72, entry 4). -/
  tx : List TxRequest
  /-- The host operation words still to be run, next first (R42, entry 5). -/
  hostOps : List HostWord
  /-- The datagrams waiting at the datagram port, next first (R95, entry 5). -/
  port : List Datagram
  deriving DecidableEq, Repr

/-- No operation of the engine faults: "The engine raises no synchronous exception, has no cause codes, records no
faulting address and never stops" (R250). -/
inductive Fault where
  deriving DecidableEq, Repr

/-- Why a step has no meaning. -/
inductive Refusal where
  /-- An instruction without a meaning in this model; raised by no arm of `exec`. Safe. -/
  | notModelled (mnemonic : String)
  /-- `HostViolation` of R252(b): an `INGEST` takes a datagram whose `LEN` differs from the number of bytes the port
  delivers. Raised by `ingest`. Safe: the spec gives this situation no meaning and says that a model refuses it. -/
  | hostViolation
  deriving DecidableEq, Repr

/-- The template at reset: the magic at 0..7 and the bytes 8, 9, 14, 15; every other byte is 0 (R31, R271). -/
def templateAtReset : Memory :=
  [(0, 0x41#8), (1, 0x72#8), (2, 0x74#8), (3, 0x2D#8), (4, 0x4E#8), (5, 0x65#8), (6, 0x74#8), (9, 0x21#8),
   (14, 0x36#8), (15, 0x19#8)]

/-- The machine right after reset (R270, R271), with nothing to run, nothing received and nothing sent. -/
def State.reset : State where
  net := 0
  subnet := 0
  univ := 0
  htpEn := false
  bcastEn := false
  bcastIp := 0
  nodeIp := 0
  srcA := none
  srcB := none
  slotsA := 0
  slotsB := 0
  outSlots := 0
  a := []
  b := []
  out := []
  rx := []
  rxLen := 0
  tpl := templateAtReset
  result := false
  rdata := 0
  tx := []
  hostOps := []
  port := []

end Sys2Proof.Machine
end

