-- ==== Sys2Proof/Machine/Ops.lean ====
section
/-! DEFINITION. The named operations over the byte arrays, the ports and the queues that the meanings share. The engine
takes no exception and returns from none (spec/60_exceptions.md R250, R255), so there is no such operation here. -/

namespace Sys2Proof.Machine

/-! ## Byte arrays -/

/-- The byte at an index (R9). -/
def Memory.read : Memory → Nat → Byte
  | [], _ => unlistedByte
  | (i, v) :: m, a => if i = a then v else Memory.read m a

/-- The `n` bytes from an index on (`MemRead`, R10). -/
def Memory.readBytes (m : Memory) (base n : Nat) : List Byte := (List.range n).map fun i => m.read (base + i)

/-- The cells of consecutive bytes, without those an unlisted index already gives. -/
def cellsFrom : Nat → List Byte → Memory
  | _, [] => []
  | i, v :: vs => if v = unlistedByte then cellsFrom (i + 1) vs else (i, v) :: cellsFrom (i + 1) vs

/-- Writes consecutive bytes from an index on (`MemWrite`, R10). -/
def Memory.writeBytes (m : Memory) (base : Nat) (bytes : List Byte) : Memory :=
  m.filter (fun c => decide (c.1 < base)) ++ cellsFrom base bytes
    ++ m.filter (fun c => decide (base + bytes.length ≤ c.1))

/-- Writes one byte. -/
def Memory.write (m : Memory) (i : Nat) (v : Byte) : Memory := m.writeBytes i [v]

/-- `X[lo..hi) <- 0` (R9). -/
def Memory.zeroRange (m : Memory) (lo hi : Nat) : Memory :=
  m.filter fun c => decide (c.1 < lo) || decide (hi ≤ c.1)

/-! ## The ports -/

/-- Appends one transmit request to the transmit stream (`emit TX`, R10, R72). -/
def emit (r : TxRequest) (s : State) : State := { s with tx := s.tx ++ [r] }

/-- Capture: the datagram goes to `RX[0..LEN)` and its length to `RX_LEN` (R123). -/
def capture (bytes : List Byte) (s : State) : State :=
  { s with rx := s.rx.writeBytes 0 bytes, rxLen := bytes.length }

/-- The next host operation word and the state in which it runs; none when the host has issued no further one (R42,
entries 5, 13). -/
def fetch (s : State) : Option (HostWord × State) :=
  match s.hostOps with
  | [] => none
  | w :: rest => some (w, { s with hostOps := rest })

/-- Places one host operation and, for an `INGEST`, its datagram where they are taken next (entry 5). -/
def issue (w : HostWord) (ds : List Datagram) (s : State) : State :=
  { s with hostOps := w :: s.hostOps, port := ds ++ s.port }

end Sys2Proof.Machine
end

