-- ==== Sys2Proof/Machine/Flags.lean ====
section
/-! DEFINITION. The one flag, `RESULT.DMX_CHANGED` (spec/10_state.md R32, R43), and the read datum. -/

namespace Sys2Proof.Machine

/-- `zext_32` of a result bit (R131). -/
def resultDatum (r : Bool) : Word32 := if r then 1#32 else 0#32

/-- The end of every `INGEST`: `RESULT <- r` and `RDATA <- zext_32(r)` (R131). -/
def finish (p : Bool × State) : State := { p.2 with result := p.1, rdata := resultDatum p.1 }

/-- Returns a read datum: `RDATA <- v` (R92). -/
def answer (v : Word32) (s : State) : State := { s with rdata := v }

end Sys2Proof.Machine
end

