-- ==== Sys2Proof/Machine/Operands.lean ====
section
/-! DEFINITION. What operands name: the port-address, the fields of the packet in `RX`, and the CSRs
(spec/10_state.md R22, R33 to R41; spec/30_encoding.md R83, R85). -/

namespace Sys2Proof.Machine

/-! ## The Address Model -/

/-- `PA_LO = (SUBNET << 4) | UNIVERSE` (R22). -/
def State.paLo (s : State) : Byte := s.subnet ++ s.univ

/-- `PA_HI = zext_8(NET)` (R22). -/
def State.paHi (s : State) : Byte := s.net.setWidth 8

/-- `PA = (NET << 8) | PA_LO` (R22). -/
def State.pa (s : State) : BitVec 15 := s.net ++ s.paLo

/-! ## Fields of the packet in `RX` -/

/-- The opcode (R83). -/
def rxOpcode (rx : Memory) : Opcode := opcodeOfBytes (rx.read 8) (rx.read 9)

/-- The slot count of an ArtDMX packet, big-endian (R85). -/
def rxSlotCount (rx : Memory) : Nat := (rx.read 16).toNat * 256 + (rx.read 17).toNat

/-- The level bytes of an ArtDMX packet: `RX[18..18+n)` (R85). -/
def rxLevels (rx : Memory) (n : Nat) : List Byte := rx.readBytes Config.dmxHeaderLen n

/-! ## The CSRs -/

/-- The value a CSR reads as; a reserved number reads 0 (R34 to R41). -/
def csrValue (idx : Index) (s : State) : Word32 :=
  match idx.toNat with
  | 0 => (BitVec.ofBool s.bcastEn ++ BitVec.ofBool s.htpEn : BitVec 2).setWidth 32
  | 1 => s.pa.setWidth 32
  | 2 => s.nodeIp
  | 3 => s.bcastIp
  | 4 => BitVec.ofNat 32 s.outSlots
  | 5 => (BitVec.ofBool s.result).setWidth 32
  | 6 => BitVec.ofNat 32 s.rxLen
  | _ => 0

/-- The four octets of an address, the first dotted-decimal octet first (R36, R65). -/
def octets (ip : Ip) : List Byte :=
  [ip.extractLsb' 24 8, ip.extractLsb' 16 8, ip.extractLsb' 8 8, ip.extractLsb' 0 8]

/-- A template offset that the host owns: below 239, not in 0..15 and not `PR_PA_OFFSET` (R31, R225). -/
def hostOwned (i : Nat) : Bool :=
  decide (i < Config.pollReplyLen) && decide (16 ≤ i) && decide (i ≠ Config.prPaOffset)

end Sys2Proof.Machine
end

