-- ==== Sys2Proof/Machine/Merge.lean ====
section
/-! DEFINITION. The DMX merge engine (spec/41_merge_engine.md): the ArtDMX handler, the HTP merge, single-source mode,
cancel-merge, clear-buffer and enable. A handler answers the result bit and the state. -/

namespace Sys2Proof.Machine

/-- The merge state derived from the source slots (R27). -/
inductive MergeState where
  | noSender | oneSender | twoSenders | bOnly
  deriving DecidableEq, Repr

/-- The merge state of a state (R27). -/
def State.mergeState (s : State) : MergeState :=
  match s.srcA, s.srcB with
  | none, none => .noSender
  | some _, none => .oneSender
  | some _, some _ => .twoSenders
  | none, some _ => .bOnly

/-- The larger of two unsigned levels (R149). -/
def maxLevel (x y : Byte) : Byte := if x.toNat ≤ y.toNat then y else x

/-- The merged levels of the first `n` channels: `max(A[i], B[i])` (R149). -/
def mergedLevels (a b : Memory) (n : Nat) : List Byte := (List.range n).map fun i => maxLevel (a.read i) (b.read i)

/-- `MERGE()` (R149). -/
def merge (s : State) : State :=
  let n := max s.slotsA s.slotsB
  { s with outSlots := n, out := s.out.writeBytes 0 (mergedLevels s.a s.b n) }

/-- Binds source A to the sender where it is unbound, zeroing `B` (R144). -/
def bindA (sender : Ip) (s : State) : State :=
  if s.srcA = none then { s with srcA := some sender, b := s.b.zeroRange 0 Config.universeSize } else s

/-- Binds source B to the sender where it is unbound (R146). -/
def bindB (sender : Ip) (s : State) : State := if s.srcB = none then { s with srcB := some sender } else s

/-- A frame of source A: the payload to `A`, its count to `SLOTS_A`, and the merge (R145). -/
def frameA (n : Nat) (s : State) : State :=
  merge { s with a := s.a.writeBytes 0 (rxLevels s.rx n), slotsA := n }

/-- A frame of source B (R147). -/
def frameB (n : Nat) (s : State) : State :=
  merge { s with b := s.b.writeBytes 0 (rxLevels s.rx n), slotsB := n }

/-- `HTP_STEP(SENDER, n)` (R144 to R148). -/
def htpStep (sender : Ip) (n : Nat) (s : State) : Bool × State :=
  let s := bindA sender s
  if s.srcA = some sender then (true, frameA n s)
  else
    let s := bindB sender s
    if s.srcB = some sender then (true, frameB n s) else (false, s)

/-- The single-source copy: the payload to `OUT[0..n)`, zeros to `OUT[n..512)`, both counts `n` (R150). -/
def frameSingle (n : Nat) (s : State) : State :=
  { s with out := (s.out.writeBytes 0 (rxLevels s.rx n)).zeroRange n Config.universeSize, slotsA := n, outSlots := n }

/-- Binds the one source of single-source mode to the sender where it is unbound (R150). -/
def bindSingle (sender : Ip) (s : State) : State := if s.srcA = none then { s with srcA := some sender } else s

/-- `SINGLE_STEP(SENDER, n)` (R150, R151). -/
def singleStep (sender : Ip) (n : Nat) (s : State) : Bool × State :=
  let s := bindSingle sender s
  if s.srcA = some sender then (true, frameSingle n s) else (false, s)

/-- The address match of an ArtDMX packet (R140). -/
def addressMatches (s : State) : Bool := decide (s.rx.read 14 = s.paLo) && decide (s.rx.read 15 = s.paHi)

/-- `DMX_HANDLER(LEN, SENDER)`: the acceptance checks in their order, then the mode's step (R140 to R143). -/
def dmxHandler (len : Nat) (sender : Ip) (s : State) : Bool × State :=
  if len < Config.dmxHeaderLen then (false, s)
  else if addressMatches s = false then (false, s)
  else
    let n := rxSlotCount s.rx
    if len < Config.dmxHeaderLen + n then (false, s)
    else if Config.universeSize < n then (false, s)
    else if s.htpEn then htpStep sender n s
    else singleStep sender n s

/-- `CANCEL_MERGE()`: both source slots unbound, result 0 (R152). -/
def cancelMerge (s : State) : Bool × State := (false, { s with srcA := none, srcB := none })

/-- `CLEAR_BUFFER()`: source A unbound, `OUT` zeroed, `OUT_SLOTS = 512`, result 1 (R153). -/
def clearBuffer (s : State) : Bool × State :=
  (true, { s with srcA := none, out := s.out.zeroRange 0 Config.universeSize, outSlots := Config.universeSize })

/-- `ENABLE_HTP()` (R154). -/
def enableHtp (s : State) : State :=
  if s.htpEn then s
  else
    { s with
      htpEn := true, srcA := none, srcB := none
      a := s.a.zeroRange 0 Config.universeSize
      b := s.b.zeroRange 0 Config.universeSize
      out := s.out.zeroRange 0 Config.universeSize
      slotsA := 0, slotsB := 0, outSlots := 0 }

end Sys2Proof.Machine
end

