-- ==== Sys2Proof/Machine/HostOps.lean ====
section
/-! DEFINITION. The host operations but `ingest` (spec/44_host_ops.md). Every operation returns a read datum; a write
returns 0. -/

namespace Sys2Proof.Machine

/-! ## The CSR writes -/

/-- `CTRL`: a 1 in bit 0 enables HTP, a 0 leaves it; `BCAST_EN <- v[1]` (R34). -/
def writeCtrl (v : Word32) (s : State) : State :=
  { (if v.getLsbD 0 then enableHtp s else s) with bcastEn := v.getLsbD 1 }

/-- `PORT_ADDR` (R35). -/
def writePortAddr (v : Word32) (s : State) : State :=
  { s with net := v.extractLsb' 8 7, subnet := v.extractLsb' 4 4, univ := v.extractLsb' 0 4 }

/-- `NODE_IP`, also copied into the template bytes 10..13 (R36). -/
def writeNodeIp (v : Word32) (s : State) : State := { s with nodeIp := v, tpl := s.tpl.writeBytes 10 (octets v) }

/-- `BCAST_IP` (R37). -/
def writeBcastIp (v : Word32) (s : State) : State := { s with bcastIp := v }

/-- `NUM_SLOTS`: a value above 512 has no effect (R38). -/
def writeNumSlots (v : Word32) (s : State) : State :=
  if v.toNat ≤ Config.universeSize then { s with outSlots := v.toNat } else s

/-- The write of a CSR; `RESULT`, `RX_LEN` and reserved numbers ignore it (R34 to R41, R221). -/
def writeCsr (idx : Index) (v : Word32) (s : State) : State :=
  match idx.toNat with
  | 0 => writeCtrl v s
  | 1 => writePortAddr v s
  | 2 => writeNodeIp v s
  | 3 => writeBcastIp v s
  | 4 => writeNumSlots v s
  | _ => s

/-! ## The operations -/

/-- `csrr` (R220). -/
def execCsrRead (idx : Index) (s : State) : Host.Outcome State Fault Refusal := .next (answer (csrValue idx s) s)

/-- `csrw` (R221). -/
def execCsrWrite (idx : Index) (data : Word32) (s : State) : Host.Outcome State Fault Refusal :=
  .next (answer 0 (writeCsr idx data s))

/-- The byte a host reads in a space of which the first `size` indices are readable, zero-extended; 0 beyond them
(R62 to R64). -/
def hostByte (m : Memory) (size : Nat) (idx : Index) : Word32 :=
  if idx.toNat < size then (m.read idx.toNat).setWidth 32 else 0

/-- `outr` (R222). -/
def execOutRead (idx : Index) (s : State) : Host.Outcome State Fault Refusal :=
  .next (answer (hostByte s.out Config.universeSize idx) s)

/-- `outw` (R223). -/
def execOutWrite (idx : Index) (byte : Byte) (s : State) : Host.Outcome State Fault Refusal :=
  .next (answer 0 (if idx.toNat < Config.universeSize then { s with out := s.out.write idx.toNat byte } else s))

/-- `tplr` (R224). -/
def execTplRead (idx : Index) (s : State) : Host.Outcome State Fault Refusal :=
  .next (answer (hostByte s.tpl Config.pollReplyLen idx) s)

/-- `tplw` (R225). -/
def execTplWrite (idx : Index) (byte : Byte) (s : State) : Host.Outcome State Fault Refusal :=
  .next (answer 0 (if hostOwned idx.toNat then { s with tpl := s.tpl.write idx.toNat byte } else s))

/-- `rxr` (R226). -/
def execRxRead (idx : Index) (s : State) : Host.Outcome State Fault Refusal :=
  .next (answer (hostByte s.rx s.rxLen idx) s)

/-- `nop` (R228). -/
def execNop (s : State) : Host.Outcome State Fault Refusal := .next (answer 0 s)

/-- `reserved_op_0x9`: as `nop` (R229). -/
def execReservedOp9 (s : State) : Host.Outcome State Fault Refusal := .next (answer 0 s)

/-- `reserved_op_0xA`: as `nop` (R229). -/
def execReservedOpA (s : State) : Host.Outcome State Fault Refusal := .next (answer 0 s)

/-- `reserved_op_0xB`: as `nop` (R229). -/
def execReservedOpB (s : State) : Host.Outcome State Fault Refusal := .next (answer 0 s)

/-- `reserved_op_0xC`: as `nop` (R229). -/
def execReservedOpC (s : State) : Host.Outcome State Fault Refusal := .next (answer 0 s)

/-- `reserved_op_0xD`: as `nop` (R229). -/
def execReservedOpD (s : State) : Host.Outcome State Fault Refusal := .next (answer 0 s)

/-- `reserved_op_0xE`: as `nop` (R229). -/
def execReservedOpE (s : State) : Host.Outcome State Fault Refusal := .next (answer 0 s)

/-- `reserved_op_0xF`: as `nop` (R229). -/
def execReservedOpF (s : State) : Host.Outcome State Fault Refusal := .next (answer 0 s)

end Sys2Proof.Machine
end

