-- ==== Sys2Proof/Machine/PollReply.lean ====
section
/-! DEFINITION. The poll-reply encoder (spec/43_poll_reply.md) and the meaning of the row of the datagram it emits. -/

namespace Sys2Proof.Machine

/-- `TPL[PR_PA_OFFSET] <- PA_LO` (R201). -/
def refreshPortAddress (s : State) : State := { s with tpl := s.tpl.write Config.prPaOffset s.paLo }

/-- The destination of a reply: `BCAST_IP` when `BCAST_EN = 1`, else the sender (R202). -/
def replyDest (sender : Ip) (s : State) : Ip := if s.bcastEn then s.bcastIp else sender

/-- The reply's transmit request: port 6454 and the 239 template bytes (R203, R204). -/
def replyRequest (sender : Ip) (s : State) : TxRequest :=
  ⟨replyDest sender s, Config.artnetPort, s.tpl.readBytes 0 Config.pollReplyLen⟩

/-- `POLL_REPLY(SENDER)` (R200). -/
def pollReply (sender : Ip) (s : State) : State :=
  let s := refreshPortAddress s
  emit (replyRequest sender s) s

/-- `ArtPollReply_emitted`: the encoder runs for a sender (R200 to R204, entry 10). -/
def execArtPollReplyEmitted (sender : Ip) (s : State) : Host.Outcome State Fault Refusal :=
  .next (pollReply sender s)

end Sys2Proof.Machine
end

