-- ==== Sys2Proof/Machine/Address.lean ====
section
/-! DEFINITION. The Address Configurator (spec/42_address_config.md) and the ArtAddress route of the dispatcher
(spec/40_validator_dispatch.md R129). -/

namespace Sys2Proof.Machine

/-- A net field value as applied to `NET`: its low 7 bits where bit 7 is set (R181). -/
def netField (field : Byte) (old : BitVec 7) : BitVec 7 := if field.getLsbD 7 then field.extractLsb' 0 7 else old

/-- A universe or subnet field value as applied to its nibble: the low 4 bits where it is not the sentinel 0x7F and
bit 7 is set (R182, R183). -/
def nibbleField (field : Byte) (old : BitVec 4) : BitVec 4 :=
  if field ≠ Config.noChange ∧ field.getLsbD 7 then field.extractLsb' 0 4 else old

/-- The three field updates of an ArtAddress packet, offsets 12, 100 and 104 (R180 to R183). -/
def applyFields (s : State) : State :=
  { s with
    net := netField (s.rx.read 12) s.net
    univ := nibbleField (s.rx.read 100) s.univ
    subnet := nibbleField (s.rx.read 104) s.subnet }

/-- A command byte other than 0x01 and 0x90: no operation, result 0 (R184). -/
def noCommand (s : State) : Bool × State := (false, s)

/-- The command byte at offset 106 (R184). -/
def runCommand (s : State) : Bool × State :=
  let c := s.rx.read 106
  if c = Config.cmdCancelMerge then cancelMerge s
  else if c = Config.cmdClearBuffer then clearBuffer s
  else noCommand s

/-- The ArtAddress route with a given command: where the length and version checks hold, the fields, the command, then
always the poll reply; otherwise nothing (R129, R180). -/
def addressRouteWith (command : State → Bool × State) (len : Nat) (sender : Ip) (s : State) : Bool × State :=
  if Config.addressMinLen ≤ len ∧ Config.minVersion.toNat ≤ (s.rx.read 11).toNat then
    let p := command (applyFields s)
    (p.1, pollReply sender p.2)
  else (false, s)

/-- The ArtAddress route: the command is the packet's (R129, R184). -/
def addressRoute (len : Nat) (sender : Ip) (s : State) : Bool × State := addressRouteWith runCommand len sender s

/-- The ArtPoll route: where the length and version checks hold, the poll reply; result 0 either way (R128). -/
def pollRoute (len : Nat) (sender : Ip) (s : State) : Bool × State :=
  if Config.pollMinLen ≤ len ∧ Config.minVersion.toNat ≤ (s.rx.read 11).toNat then (false, pollReply sender s)
  else (false, s)

/-- The route of every other opcode, and of a datagram without a header: nothing happens, result 0 (R124, R130). -/
def ignoreRoute (_len : Nat) (_sender : Ip) (s : State) : Bool × State := (false, s)

end Sys2Proof.Machine
end

