-- ==== Sys2Proof/Machine/Receive.lean ====
section
/-! DEFINITION. The receive path (spec/40_validator_dispatch.md): the validator, the dispatcher, the operation `ingest`,
and the meanings of the rows of received datagrams. Each of those rows means the whole atomic `INGEST` of such a datagram
(R11, R120, entry 9). -/

namespace Sys2Proof.Machine

/-- `VALIDATE(RX, LEN)` (R124). -/
def validate (rx : Memory) (len : Nat) : Bool × Opcode :=
  if len < Config.headerLen then (false, Config.opNotArtNet)
  else if rx.readBytes 0 8 ≠ Config.magic then (false, Config.opNotArtNet)
  else (true, rxOpcode rx)

/-- `DISPATCH(opcode, LEN, SENDER)` (R126 to R130). -/
def dispatch (op : Opcode) (len : Nat) (sender : Ip) (s : State) : Bool × State :=
  if op = Config.opDmx then dmxHandler len sender s
  else if op = Config.opPoll then pollRoute len sender s
  else if op = Config.opAddress then addressRoute len sender s
  else ignoreRoute len sender s

/-- Validation of the captured packet and, where it is valid, its dispatch (R120). -/
def handle (len : Nat) (sender : Ip) (s : State) : Bool × State :=
  let v := validate s.rx len
  if v.1 then dispatch v.2 len sender s else ignoreRoute len sender s

/-- The reception of one datagram: the capacity check, the capture, a route for the captured packet, and the result
(R120, R122, R123, R131). -/
def receive (route : Nat → Ip → State → Bool × State) (sender : Ip) (bytes : List Byte) (s : State) : State :=
  if Config.rxCap < bytes.length then finish (false, s)
  else finish (route bytes.length sender (capture bytes s))

/-- `ingest` (R120, R227). With `PRESENT = 0`, or with no datagram at the port (entry 6), nothing is received (R121). A
datagram whose `LEN` is not the number of its bytes is refused (R252(b), entry 14). -/
def execIngest (present : Bool) (s : State) : Host.Outcome State Fault Refusal :=
  match present, s.port with
  | false, _ => .next (finish (false, s))
  | true, [] => .next (finish (false, s))
  | true, d :: rest =>
    if d.len.toNat = d.bytes.length then .next (receive handle d.sender d.bytes { s with port := rest })
    else .refused .hostViolation

/-- `ArtDMX` (R127, R140). -/
def execArtDMX (sender : Ip) (body : List Byte) (s : State) : Host.Outcome State Fault Refusal :=
  .next (receive dmxHandler sender (packet Config.opDmx body) s)

/-- `ArtPoll` (R128). -/
def execArtPoll (sender : Ip) (body : List Byte) (s : State) : Host.Outcome State Fault Refusal :=
  .next (receive pollRoute sender (packet Config.opPoll body) s)

/-- `ArtAddress` (R129). -/
def execArtAddress (sender : Ip) (body : List Byte) (s : State) : Host.Outcome State Fault Refusal :=
  .next (receive addressRoute sender (packet Config.opAddress body) s)

/-- `ArtPollReply_received` (R130). -/
def execArtPollReplyReceived (sender : Ip) (body : List Byte) (s : State) : Host.Outcome State Fault Refusal :=
  .next (receive ignoreRoute sender (packet Config.opPollReply body) s)

/-- `ART_UNKNOWN_OPCODE` (R130). -/
def execArtUnknownOpcode (sender : Ip) (op : Opcode) (body : List Byte) (s : State) :
    Host.Outcome State Fault Refusal :=
  .next (receive ignoreRoute sender (packet op body) s)

/-- `NOT_ARTNET` (R124). -/
def execNotArtNet (sender : Ip) (bytes : List Byte) (s : State) : Host.Outcome State Fault Refusal :=
  .next (receive ignoreRoute sender bytes s)

/-- `ArtAddress_CancelMerge` (R129, R152, R184). -/
def execArtAddressCancelMerge (sender : Ip) (front tail : List Byte) (s : State) :
    Host.Outcome State Fault Refusal :=
  .next (receive (addressRouteWith cancelMerge) sender (addressPacket front Config.cmdCancelMerge tail) s)

/-- `ArtAddress_ClearBuffer` (R129, R153, R184). -/
def execArtAddressClearBuffer (sender : Ip) (front tail : List Byte) (s : State) :
    Host.Outcome State Fault Refusal :=
  .next (receive (addressRouteWith clearBuffer) sender (addressPacket front Config.cmdClearBuffer tail) s)

/-- `ArtAddress_NoCommand` (R129, R184). -/
def execArtAddressNoCommand (sender : Ip) (front : List Byte) (command : Byte) (tail : List Byte) (s : State) :
    Host.Outcome State Fault Refusal :=
  .next (receive (addressRouteWith noCommand) sender (addressPacket front command tail) s)

end Sys2Proof.Machine
end

