-- ==== Sys2Proof/Machine/Dispatch.lean ====
section
/-! DEFINITION. The meaning of every instruction, one arm per row of spec/opcode_table.json. -/

namespace Sys2Proof.Machine

def exec (i : Instr) (s : State) : Host.Outcome State Fault Refusal :=
  match i with
  | .artDMX sender body => Sys2Proof.Machine.execArtDMX sender body s
  | .artPoll sender body => Sys2Proof.Machine.execArtPoll sender body s
  | .artAddress sender body => Sys2Proof.Machine.execArtAddress sender body s
  | .artPollReplyReceived sender body => Sys2Proof.Machine.execArtPollReplyReceived sender body s
  | .artUnknownOpcode sender op body => Sys2Proof.Machine.execArtUnknownOpcode sender op body s
  | .notArtNet sender bytes => Sys2Proof.Machine.execNotArtNet sender bytes s
  | .artAddressCancelMerge sender front tail => Sys2Proof.Machine.execArtAddressCancelMerge sender front tail s
  | .artAddressClearBuffer sender front tail => Sys2Proof.Machine.execArtAddressClearBuffer sender front tail s
  | .artAddressNoCommand sender front command tail => Sys2Proof.Machine.execArtAddressNoCommand sender front command tail s
  | .artPollReplyEmitted sender => Sys2Proof.Machine.execArtPollReplyEmitted sender s
  | .nop => Sys2Proof.Machine.execNop s
  | .csrRead idx => Sys2Proof.Machine.execCsrRead idx s
  | .csrWrite idx data => Sys2Proof.Machine.execCsrWrite idx data s
  | .outRead idx => Sys2Proof.Machine.execOutRead idx s
  | .outWrite idx byte => Sys2Proof.Machine.execOutWrite idx byte s
  | .tplRead idx => Sys2Proof.Machine.execTplRead idx s
  | .tplWrite idx byte => Sys2Proof.Machine.execTplWrite idx byte s
  | .rxRead idx => Sys2Proof.Machine.execRxRead idx s
  | .ingest present => Sys2Proof.Machine.execIngest present s
  | .reservedOp9 => Sys2Proof.Machine.execReservedOp9 s
  | .reservedOpA => Sys2Proof.Machine.execReservedOpA s
  | .reservedOpB => Sys2Proof.Machine.execReservedOpB s
  | .reservedOpC => Sys2Proof.Machine.execReservedOpC s
  | .reservedOpD => Sys2Proof.Machine.execReservedOpD s
  | .reservedOpE => Sys2Proof.Machine.execReservedOpE s
  | .reservedOpF => Sys2Proof.Machine.execReservedOpF s

end Sys2Proof.Machine
end

