-- ==== Sys2Proof/Machine/Step.lean ====
section
/-! DEFINITION. One step of the machine: the next host operation, atomically (spec/00_scope.md R11; spec/10_state.md R42). -/

namespace Sys2Proof.Machine

/-- Runs the next host operation word. While the host issues none, the engine holds its state (R2, R260, entry 13). -/
def step (s : State) : Host.Outcome State Fault Refusal :=
  match fetch s with
  | none => .next s
  | some (w, s') => exec (decodeWord w) s'

/-- `s` with the instruction that a number of the opcode table stands for placed where the next step takes it: a host
word as the next operation, a datagram at the port with the `INGEST` that receives it (entries 5, 11). -/
def State.withFetchWord (s : State) (nbits w : Nat) : State :=
  if nbits = 64 then issue (BitVec.ofNat 64 w) [] s
  else issue (hostWord 0x8#4 0 1) [datagramOf 0#32 (tablePacket nbits w)] s

end Sys2Proof.Machine
end

