-- ==== Sys2Proof/Machine/Script.lean ====
section
/-! DEFINITION. The host script notation of spec/30_encoding.md R97 and its pseudo-instructions, R98: what each line
assembles to. The machine itself reads words and datagrams only. -/

namespace Sys2Proof.Machine

/-- The operands of `ingest dmx` with their defaults (R98). -/
structure DmxLine where
  sender : Ip
  pa     : Byte
  net    : Byte
  data   : List Byte
  slots  : Option (BitVec 16) := none
  pad    : Nat := 0
  ver    : Byte := 14#8
  seq    : Byte := 0#8
  phys   : Byte := 0#8
  deriving DecidableEq, Repr

/-- The operands of `ingest addr` with their defaults (R98). -/
structure AddrLine where
  sender : Ip
  net    : Byte := 0x00#8
  uni    : Byte := 0x7F#8
  sub    : Byte := 0x7F#8
  cmd    : Byte := 0x00#8
  ver    : Byte := 14#8
  deriving DecidableEq, Repr

/-- A line of a host script (R97) or a pseudo-instruction (R98). -/
inductive ScriptLine where
  | nop
  | csrr (csr : Index)
  | csrw (csr : Index) (value : Word32)
  | outr (index : Index)
  | outw (index : Index) (value : Word32)
  | tplr (index : Index)
  | tplw (index : Index) (value : Word32)
  | rxr (index : Index)
  | ingestNone
  | ingestRaw (sender : Ip) (bytes : List Byte)
  | ingestDmx (line : DmxLine)
  | ingestPoll (sender : Ip) (ver : Byte) (len : Nat)
  | ingestAddr (line : AddrLine)
  | cancelmerge (sender : Ip)
  | blackout (sender : Ip)
  | setpa (net : BitVec 7) (sub uni : BitVec 4)
  | enablehtp
  deriving DecidableEq, Repr

/-- The packet of `ingest dmx` (R98). DESIGN CHOICE (entry 15): of a default slot count above 65535, which R98 leaves open,
the low 16 bits are taken. -/
def DmxLine.packet (l : DmxLine) : List Byte :=
  let n := l.slots.getD (BitVec.ofNat 16 l.data.length)
  Config.magic ++ [0x00#8, 0x50#8, 0x00#8, l.ver, l.seq, l.phys, l.pa, l.net, n.extractLsb' 8 8, n.extractLsb' 0 8]
    ++ l.data ++ List.replicate l.pad 0#8

/-- The packet of `ingest poll` (R98, which gives the expansion for `L >= 12`). DESIGN CHOICE (entry 15): for a `len`
below 12 it is the packet of `len` 12. -/
def pollPacket (ver : Byte) (len : Nat) : List Byte :=
  Config.magic ++ [0x00#8, 0x20#8, 0x00#8, ver] ++ List.replicate (len - 12) 0#8

/-- The packet of `ingest addr` (R98). -/
def AddrLine.packet (l : AddrLine) : List Byte :=
  Config.magic ++ [0x00#8, 0x60#8, 0x00#8, l.ver, l.net] ++ List.replicate 87 0#8
    ++ [l.uni, 0#8, 0#8, 0#8, l.sub, 0#8, l.cmd]

/-- `(OP << 60) | (IDX << 40) | DATA` (R97). -/
def scriptWord (op : Nat) (idx : Index) (data : Word32) : HostWord :=
  (BitVec.ofNat 64 op <<< 60) ||| (idx.setWidth 64 <<< 40) ||| data.setWidth 64

/-- The `INGEST` of a packet (R97). -/
def ingestOf (sender : Ip) (bytes : List Byte) : HostWord × List Datagram :=
  (scriptWord 8 0 1, [datagramOf sender bytes])

/-- The word of a line and, for an `INGEST` with `PRESENT = 1`, its datagram (R97, R98). -/
def ScriptLine.assemble : ScriptLine → HostWord × List Datagram
  | .nop => (scriptWord 0 0 0, [])
  | .csrr csr => (scriptWord 1 csr 0, [])
  | .csrw csr value => (scriptWord 2 csr value, [])
  | .outr index => (scriptWord 3 index 0, [])
  | .outw index value => (scriptWord 4 index value, [])
  | .tplr index => (scriptWord 5 index 0, [])
  | .tplw index value => (scriptWord 6 index value, [])
  | .rxr index => (scriptWord 7 index 0, [])
  | .ingestNone => (scriptWord 8 0 0, [])
  | .ingestRaw sender bytes => ingestOf sender bytes
  | .ingestDmx l => ingestOf l.sender l.packet
  | .ingestPoll sender ver len => ingestOf sender (pollPacket ver len)
  | .ingestAddr l => ingestOf l.sender l.packet
  | .cancelmerge sender => ingestOf sender (AddrLine.packet { sender := sender, cmd := 0x01#8 })
  | .blackout sender => ingestOf sender (AddrLine.packet { sender := sender, cmd := 0x90#8 })
  | .setpa net sub uni => (scriptWord 2 1 ((net ++ sub ++ uni : BitVec 15).setWidth 32), [])
  | .enablehtp => (scriptWord 2 0 1, [])

/-- The state with a line issued as the host's next operation (entry 5). -/
def State.withLine (s : State) (l : ScriptLine) : State := issue l.assemble.1 l.assemble.2 s

/-- One step on a line. -/
def runLine (l : ScriptLine) (s : State) : Host.Outcome State Fault Refusal := step (s.withLine l)

end Sys2Proof.Machine
end

