-- ==== Sys2Proof/Machine/Verdict.lean ====
section
/-! DEFINITION. The model-level verdicts of spec/40_validator_dispatch.md R132 and spec/60_exceptions.md R251: the label of
an `INGEST`, by the first condition that applies. No operation reads a verdict. -/

namespace Sys2Proof.Machine

/-- The verdicts of R132. -/
inductive Verdict where
  | noDatagram | oversize | notArtNet | dmxShort | dmxAddrMismatch | dmxTruncated | dmxTooManySlots
  | dmxAcceptedA | dmxAcceptedB | dmxAcceptedSingle | dmxDroppedSender | pollReplied | pollRejected
  | addressApplied | addressCleared | addressRejected | unknownOpcode
  deriving DecidableEq, Repr

/-- The four verdicts with `RESULT = 1` (R132). -/
def Verdict.changed : Verdict → Bool
  | .dmxAcceptedA | .dmxAcceptedB | .dmxAcceptedSingle | .addressCleared => true
  | .noDatagram | .oversize | .notArtNet | .dmxShort | .dmxAddrMismatch | .dmxTruncated | .dmxTooManySlots
  | .dmxDroppedSender | .pollReplied | .pollRejected | .addressApplied | .addressRejected | .unknownOpcode => false

/-- The silent drops of R251. -/
def Verdict.isDrop : Verdict → Bool
  | .noDatagram | .oversize | .notArtNet | .dmxShort | .dmxAddrMismatch | .dmxTruncated | .dmxTooManySlots
  | .dmxDroppedSender | .pollRejected | .addressRejected | .unknownOpcode => true
  | .dmxAcceptedA | .dmxAcceptedB | .dmxAcceptedSingle | .pollReplied | .addressApplied | .addressCleared => false

/-- A frame may be taken by a source slot: the slot is unbound or holds the sender (R144 to R151). -/
def slotTakes (slot : Option Ip) (sender : Ip) : Bool := decide (slot = none) || decide (slot = some sender)

/-- The verdict of an ArtDMX packet in `RX` (R140 to R151). -/
def dmxVerdict (len : Nat) (sender : Ip) (s : State) : Verdict :=
  if len < Config.dmxHeaderLen then .dmxShort
  else if addressMatches s = false then .dmxAddrMismatch
  else if len < Config.dmxHeaderLen + rxSlotCount s.rx then .dmxTruncated
  else if Config.universeSize < rxSlotCount s.rx then .dmxTooManySlots
  else if s.htpEn then
    if slotTakes s.srcA sender then .dmxAcceptedA
    else if slotTakes s.srcB sender then .dmxAcceptedB
    else .dmxDroppedSender
  else if slotTakes s.srcA sender then .dmxAcceptedSingle
  else .dmxDroppedSender

/-- The verdict of a captured datagram (R124 to R130, R184). -/
def capturedVerdict (len : Nat) (sender : Ip) (s : State) : Verdict :=
  let v := validate s.rx len
  if v.1 = false then .notArtNet
  else if v.2 = Config.opDmx then dmxVerdict len sender s
  else if v.2 = Config.opPoll then
    if Config.pollMinLen ≤ len ∧ Config.minVersion.toNat ≤ (s.rx.read 11).toNat then .pollReplied else .pollRejected
  else if v.2 = Config.opAddress then
    if Config.addressMinLen ≤ len ∧ Config.minVersion.toNat ≤ (s.rx.read 11).toNat then
      if s.rx.read 106 = Config.cmdClearBuffer then .addressCleared else .addressApplied
    else .addressRejected
  else .unknownOpcode

/-- The verdict of an `INGEST` in a state (R132); a datagram whose `LEN` is wrong has none (R252(b)). -/
def ingestVerdict (present : Bool) (s : State) : Verdict :=
  match present, s.port with
  | false, _ => .noDatagram
  | true, [] => .noDatagram
  | true, d :: _ =>
    if Config.rxCap < d.bytes.length then .oversize
    else capturedVerdict d.bytes.length d.sender (capture d.bytes s)

end Sys2Proof.Machine
end

