-- ==== Sys2Proof/Safety.lean ====
section
/-! DEFINITION. What counts as a legal state (spec/10_state.md R45) and the terms the claims use. -/

namespace Sys2Proof.Machine

/-- A fixed template offset: 0..9, 14 and 15 (R31). -/
def fixedOffset (i : Nat) : Bool := decide (i < 10) || decide (i = 14) || decide (i = 15)

/-- A byte array is in canonical form and lists no index at or above its size. -/
def Memory.legal (m : Memory) (size : Nat) : Prop := m.wf ∧ m.below size

/-- The invariants of R45, the node-address bytes that R31 and R36 tie to `NODE_IP`, and the form of the byte arrays.
`NET`, `SUBNET` and `UNIVERSE` are within their ranges by their types. -/
structure State.Inv (s : State) : Prop where
  outSlots_le : s.outSlots ≤ 512
  slotsA_le : s.slotsA ≤ 512
  slotsB_le : s.slotsB ≤ 512
  rxLen_le : s.rxLen ≤ Config.rxCap
  single_srcB : s.htpEn = false → s.srcB = none
  single_slotsB : s.htpEn = false → s.slotsB = 0
  tpl_fixed : ∀ i, fixedOffset i = true → s.tpl.read i = templateAtReset.read i
  tpl_node : s.tpl.readBytes 10 4 = octets s.nodeIp
  a_legal : s.a.legal 512
  b_legal : s.b.legal 512
  out_legal : s.out.legal 512
  rx_legal : s.rx.legal Config.rxCap
  tpl_legal : s.tpl.legal 239

/-- The state right after a datagram has been captured and nothing else has happened to it but its result bit: what a
silent drop leaves (R251). -/
def droppedState (bytes : List Byte) (s : State) : State := { capture bytes s with result := false, rdata := 0#32 }

/-- The packet byte at an offset, where the packet is what a row of the format artnet_datagram stands for: its bytes
from offset 10 on are `body` (R84, R86, R87). -/
def bodyByte (body : List Byte) (offset : Nat) : Byte := body.getD (offset - 10) 0#8

/-- The big-endian slot count of an ArtDMX body, offsets 16 and 17 (R85). -/
def bodySlots (body : List Byte) : Nat := (bodyByte body 16).toNat * 256 + (bodyByte body 17).toNat

/-- The port-address low byte as a number: `SUBNET * 16 + UNIVERSE` (R22). -/
def State.paLoNat (s : State) : Nat := s.subnet.toNat * 16 + s.univ.toNat

/-- The acceptance conditions of an ArtDMX frame before the sender checks, over the packet itself: it fits `RX`, has its
18 header bytes, matches the Address Model, holds all its levels and has at most 512 of them (R122, R140 to R142). -/
structure FrameFits (body : List Byte) (s : State) : Prop where
  fits : 10 + body.length ≤ Config.rxCap
  header : 18 ≤ 10 + body.length
  paLo : (bodyByte body 14).toNat = s.paLoNat
  paHi : (bodyByte body 15).toNat = s.net.toNat
  whole : 18 + bodySlots body ≤ 10 + body.length
  slots : bodySlots body ≤ 512

/-- Level `i` of an ArtDMX body (R85). -/
def bodyLevel (body : List Byte) (i : Nat) : Byte := bodyByte body (18 + i)

/-- The conditions under which an ArtAddress packet is carried out (R122, R129). -/
structure AddressAccepted (body : List Byte) : Prop where
  fits : 10 + body.length ≤ Config.rxCap
  length : 107 ≤ 10 + body.length
  version : 14 ≤ (bodyByte body 11).toNat

/-- The Address Model after the three fields of an ArtAddress body: net (offset 12) gated on bit 7, universe (100) and
subnet (104) on bit 7 (the sentinel 0x7F has it clear), over numbers (R181 to R183). -/
structure FieldsApplied (body : List Byte) (s t : State) : Prop where
  net : t.net.toNat =
    if 128 ≤ (bodyByte body 12).toNat then (bodyByte body 12).toNat - 128 else s.net.toNat
  univ : t.univ.toNat =
    if 128 ≤ (bodyByte body 100).toNat then (bodyByte body 100).toNat % 16 else s.univ.toNat
  subnet : t.subnet.toNat =
    if 128 ≤ (bodyByte body 104).toNat then (bodyByte body 104).toNat % 16 else s.subnet.toNat

/-- One poll reply has gone out between `s` and `t`, built from `t`'s Address Model: byte 190 of the template is the
port-address low byte, every other template byte is as before, and the one new request goes to the broadcast address
where broadcast is enabled, else to the sender, at port 6454, with the 239 template bytes (R200 to R204). -/
structure Replied (sender : Ip) (s t : State) : Prop where
  paByte : (t.tpl.read 190).toNat = t.paLoNat
  others : ∀ i, i ≠ 190 → t.tpl.read i = s.tpl.read i
  tx : t.tx = s.tx ++ [⟨if s.bcastEn then s.bcastIp else sender, 6454#16, (List.range 239).map t.tpl.read⟩]

/-- Everything an `INGEST` leaves alone in every case: the mode, the broadcast configuration, the node address, the
queues of the host (R186). -/
structure IngestFrame (s t : State) : Prop where
  htpEn : t.htpEn = s.htpEn
  bcastEn : t.bcastEn = s.bcastEn
  bcastIp : t.bcastIp = s.bcastIp
  nodeIp : t.nodeIp = s.nodeIp
  hostOps : t.hostOps = s.hostOps
  port : t.port = s.port

/-- The Address Model, the template and the transmit stream are unchanged. -/
structure AddressFrame (s t : State) : Prop where
  net : t.net = s.net
  subnet : t.subnet = s.subnet
  univ : t.univ = s.univ
  tpl : t.tpl = s.tpl
  tx : t.tx = s.tx

/-- The merge engine's state is unchanged: source slots, slot counts and level buffers. -/
structure MergeFrame (s t : State) : Prop where
  srcA : t.srcA = s.srcA
  srcB : t.srcB = s.srcB
  slotsA : t.slotsA = s.slotsA
  slotsB : t.slotsB = s.slotsB
  outSlots : t.outSlots = s.outSlots
  a : t.a = s.a
  b : t.b = s.b
  out : t.out = s.out

/-- `RX` and `RX_LEN` hold the packet: its bytes from index 0 on, every later byte as before (R123). -/
structure Captured (bytes : List Byte) (s t : State) : Prop where
  rxLen : t.rxLen = bytes.length
  inside : ∀ i, i < bytes.length → t.rx.read i = bytes.getD i 0#8
  beyond : ∀ i, bytes.length ≤ i → t.rx.read i = s.rx.read i

/-- The flag and the read datum at the end of an `INGEST` (R131). -/
structure Reported (r : Bool) (t : State) : Prop where
  result : t.result = r
  rdata : t.rdata = if r then 1#32 else 0#32

end Sys2Proof.Machine
end

