-- ==== Sys2Proof/Certificates/Slice0/Obligations.lean ====
section
/-! DEFINITION. The statements for the provers. Each docstring names the rule of spec/ it formalises. -/

open Sys2Proof Sys2Proof.Machine

/-! ## Reset and configuration -/

/-- R271: every state element at its reset value, every CSR reads 0, no byte of `RX` can be observed. -/
def Obligations.ResetHoldsTheSpecsValues : Prop :=
  let r := State.reset
  r.net = 0 ∧ r.subnet = 0 ∧ r.univ = 0 ∧ r.paLo = 0 ∧ r.paHi = 0 ∧ r.htpEn = false ∧ r.bcastEn = false
    ∧ r.bcastIp = 0 ∧ r.nodeIp = 0 ∧ r.srcA = none ∧ r.srcB = none ∧ r.mergeState = .noSender
    ∧ r.slotsA = 0 ∧ r.slotsB = 0 ∧ r.outSlots = 0
    ∧ (∀ i, r.a.read i = 0 ∧ r.b.read i = 0 ∧ r.out.read i = 0)
    ∧ r.rxLen = 0 ∧ (∀ idx, exec (.rxRead idx) r = .next { r with rdata := 0 })
    ∧ (∀ i, r.tpl.read i = ([0x41#8, 0x72#8, 0x74#8, 0x2D#8, 0x4E#8, 0x65#8, 0x74#8, 0x00#8, 0x00#8, 0x21#8, 0#8, 0#8,
        0#8, 0#8, 0x36#8, 0x19#8] : List Byte).getD i 0#8)
    ∧ r.result = false ∧ (∀ idx, exec (.csrRead idx) r = .next { r with rdata := 0 })

/-- R45: the state after reset is legal. The canonical form of the byte arrays is the model's own, and for `RX` it rests
on entry 2. -/
def Obligations.ResetIsLegal : Prop := State.reset.Inv

/-- R6: the capacity of the receive buffer, whatever it is, lies between 530 and 65535. -/
def Obligations.ReceiveCapacityIsInRange : Prop := 530 ≤ Config.rxCap ∧ Config.rxCap ≤ 65535

/-! ## The step -/

/-- R45: every step from a legal state leads to a legal state. Legality is the spec's invariants, the node-address bytes
(R31, R36), and the model's own canonical form of the byte arrays. -/
def Obligations.StepKeepsLegality : Prop := ∀ s t : State, s.Inv → step s = .next t → t.Inv

/-- R42, R11: a step runs the next host operation, decoded, with the word taken off the queue; the word of a host
operation runs that operation; with nothing issued the engine holds its state (entry 13, DEDUCED from R2 and R260). -/
def Obligations.StepRunsTheNextHostOperation : Prop :=
  (∀ (s : State) (w : HostWord) (rest : List HostWord), s.hostOps = w :: rest →
      step s = exec (decodeWord w) { s with hostOps := rest })
    ∧ (∀ (s : State) (i : Instr) (w : HostWord) (rest : List HostWord), i.wellFormed = true →
        encode i = .host64 w → s.hostOps = w :: rest → step s = exec i { s with hostOps := rest })
    ∧ ∀ s : State, s.hostOps = [] → step s = .next s

/-- R250, R252(b): a step stops exactly when it ingests a datagram whose `LEN` is not the number of its bytes; every
other step completes (entries 6, 13 and 14 are the model's reading of an empty port, of an idle host and of the order of
this check). -/
def Obligations.StepStopsOnlyOnALengthMismatch : Prop :=
  ∀ s : State,
    ((∃ t, step s = .next t) ∨ step s = .refused .hostViolation)
      ∧ (step s = .refused .hostViolation ↔
          ∃ w rest d ds, s.hostOps = w :: rest ∧ decodeWord w = .ingest true ∧ s.port = d :: ds
            ∧ d.len.toNat ≠ d.bytes.length)

/-! ## Encodings -/

/-- R81 to R93, R95: the decoder reads back every well-formed instruction of the opcode table from its encoding, and the
datagram of a well-formed datagram row announces the number of its bytes. -/
def Obligations.DecodeReadsBackEveryEncoding : Prop :=
  (∀ i : Instr, i.wellFormed = true → decode (encode i) = .ok i)
    ∧ ∀ (i : Instr) (d : Datagram), i.wellFormed = true →
        encode i = .artnetDatagram d ∨ encode i = .artAddressCommand d → d.len.toNat = d.bytes.length

/-- Words of spec/95_test_vectors.md section 2.9 decode to the operations they stand for (R92, R93). -/
def Obligations.SampleWordsDecode : Prop :=
  decodeWord 0x1000010000000000#64 = .csrRead 1#16
    ∧ decodeWord 0x20000100FFFFFFFF#64 = .csrWrite 1#16 0xFFFFFFFF#32
    ∧ decodeWord 0x40000300000001FF#64 = .outWrite 3#16 0xFF#8
    ∧ decodeWord 0x3002000000000000#64 = .outRead 512#16
    ∧ decodeWord 0x6000AD0000000001#64 = .tplWrite 173#16 1#8
    ∧ decodeWord 0x5000090000000000#64 = .tplRead 9#16
    ∧ decodeWord 0x7000090000000000#64 = .rxRead 9#16
    ∧ decodeWord 0x8000000000000001#64 = .ingest true
    ∧ decodeWord 0x9000000000000000#64 = .reservedOp9
    ∧ decodeWord 0x0000000000000000#64 = .nop

/-- R94: the reserved bits 59:56 and 39:32 are ignored, `DATA[31:8]` of byte writes and `DATA[31:1]` of `INGEST` too,
the reserved codes execute as `NOP`, and no host encoding traps. -/
def Obligations.ReservedHostEncodingsAreIgnored : Prop :=
  (∀ w w' : HostWord, w &&& 0xF0FFFF00FFFFFFFF#64 = w' &&& 0xF0FFFF00FFFFFFFF#64 → decodeWord w = decodeWord w')
    ∧ (∀ w w' : HostWord, w >>> 60 = 4#64 ∨ w >>> 60 = 6#64 →
        w &&& 0xF0FFFF00000000FF#64 = w' &&& 0xF0FFFF00000000FF#64 → decodeWord w = decodeWord w')
    ∧ (∀ w w' : HostWord, w >>> 60 = 8#64 →
        w &&& 0xF0FFFF0000000001#64 = w' &&& 0xF0FFFF0000000001#64 → decodeWord w = decodeWord w')
    ∧ (∀ (w : HostWord) (s : State), 9#64 ≤ w >>> 60 → exec (decodeWord w) s = exec .nop s)
    ∧ ∀ (w : HostWord) (s : State) (f : Fault), exec (decodeWord w) s ≠ .fault f

/-- R97: each line of a host script assembles to a word that decodes to the line's operation; `ingest raw` carries its
datagram, the bytes announced by their number (that a number above 65535 keeps its low 16 bits is the model's choice,
entry 15). -/
def Obligations.ScriptLinesAssembleToTheirOperations : Prop :=
  ∀ (idx : Index) (v : Word32) (sender : Ip) (bytes : List Byte),
    decodeWord (ScriptLine.assemble .nop).1 = .nop
      ∧ decodeWord (ScriptLine.assemble (.csrr idx)).1 = .csrRead idx
      ∧ decodeWord (ScriptLine.assemble (.csrw idx v)).1 = .csrWrite idx v
      ∧ decodeWord (ScriptLine.assemble (.outr idx)).1 = .outRead idx
      ∧ decodeWord (ScriptLine.assemble (.outw idx v)).1 = .outWrite idx (v.setWidth 8)
      ∧ decodeWord (ScriptLine.assemble (.tplr idx)).1 = .tplRead idx
      ∧ decodeWord (ScriptLine.assemble (.tplw idx v)).1 = .tplWrite idx (v.setWidth 8)
      ∧ decodeWord (ScriptLine.assemble (.rxr idx)).1 = .rxRead idx
      ∧ decodeWord (ScriptLine.assemble .ingestNone).1 = .ingest false
      ∧ decodeWord (ScriptLine.assemble (.ingestRaw sender bytes)).1 = .ingest true
      ∧ (ScriptLine.assemble (.ingestRaw sender bytes)).2 = [⟨BitVec.ofNat 16 bytes.length, sender, bytes⟩]

/-- R124, R83: on a captured datagram the validator says valid exactly for ten bytes or more that begin with the magic,
and then gives the opcode whose low byte is byte 8 and whose high byte is byte 9. -/
def Obligations.ValidatorReadsMagicAndOpcode : Prop :=
  ∀ (bytes : List Byte) (s : State),
    validate (capture bytes s).rx bytes.length
      = if 10 ≤ bytes.length ∧ bytes.take 8 = [0x41#8, 0x72#8, 0x74#8, 0x2D#8, 0x4E#8, 0x65#8, 0x74#8, 0x00#8]
        then (true, BitVec.ofNat 16 ((bytes.getD 8 0#8).toNat + 256 * (bytes.getD 9 0#8).toNat))
        else (false, 0x0000#16)

/-! ## Host operations: CSRs -/

/-- R34: `CTRL` reads `HTP_EN` in bit 0 and `BCAST_EN` in bit 1; a write with bit 0 clear, or while HTP is enabled,
writes `BCAST_EN` only; a write with bit 0 set in single-source mode also performs the enable (R154); reset 0. -/
def Obligations.CtrlRegister : Prop :=
  ∀ (s : State) (v : Word32),
    exec (.csrRead 0x00#16) s = .next { s with rdata := BitVec.ofNat 32 (s.htpEn.toNat + 2 * s.bcastEn.toNat) }
      ∧ (v.getLsbD 0 = false ∨ s.htpEn = true →
          exec (.csrWrite 0x00#16 v) s = .next { s with bcastEn := v.getLsbD 1, rdata := 0 })
      ∧ (v.getLsbD 0 = true → s.htpEn = false →
          exec (.csrWrite 0x00#16 v) s = .next { enableHtp s with bcastEn := v.getLsbD 1, rdata := 0 })
      ∧ State.reset.htpEn = false ∧ State.reset.bcastEn = false

/-- R154: the enable clears both source slots, the three level buffers and the three counts, and leaves everything else;
enabling again changes nothing. -/
def Obligations.EnableStartsAFreshMerge : Prop :=
  (∀ s : State, s.htpEn = false →
      ∃ a b o, enableHtp s = { s with htpEn := true, srcA := none, srcB := none, a := a, b := b, out := o
                                      slotsA := 0, slotsB := 0, outSlots := 0 }
        ∧ (∀ i, i < 512 → a.read i = 0 ∧ b.read i = 0 ∧ o.read i = 0)
        ∧ ∀ i, 512 ≤ i → a.read i = s.a.read i ∧ b.read i = s.b.read i ∧ o.read i = s.out.read i)
    ∧ (∀ s : State, s.htpEn = true → enableHtp s = s)
    ∧ ∀ s : State, s.htpEn = false → enableHtp (enableHtp s) = enableHtp s

/-- R35: `PORT_ADDR` reads `NET`, `SUBNET`, `UNIVERSE` in bits 14:8, 7:4, 3:0, and a write sets the three whatever its
other bits are; reset 0. -/
def Obligations.PortAddrRegister : Prop :=
  ∀ (s : State) (v : Word32),
    exec (.csrRead 0x01#16) s
        = .next { s with rdata := BitVec.ofNat 32 (s.net.toNat * 256 + s.subnet.toNat * 16 + s.univ.toNat) }
      ∧ exec (.csrWrite 0x01#16 v) s
        = .next { s with net := BitVec.ofNat 7 (v.toNat / 256), subnet := BitVec.ofNat 4 (v.toNat / 16)
                         univ := BitVec.ofNat 4 v.toNat, rdata := 0 }
      ∧ State.reset.net = 0 ∧ State.reset.subnet = 0 ∧ State.reset.univ = 0

/-- R36: `NODE_IP` reads the node address; a write sets it and, first octet first, the template bytes 10 to 13; reset
0. -/
def Obligations.NodeIpRegister : Prop :=
  ∀ (s : State) (v : Word32),
    exec (.csrRead 0x02#16) s = .next { s with rdata := s.nodeIp }
      ∧ (∃ m, exec (.csrWrite 0x02#16 v) s = .next { s with nodeIp := v, tpl := m, rdata := 0 }
          ∧ m.read 10 = BitVec.ofNat 8 (v.toNat / 2 ^ 24) ∧ m.read 11 = BitVec.ofNat 8 (v.toNat / 2 ^ 16)
          ∧ m.read 12 = BitVec.ofNat 8 (v.toNat / 2 ^ 8) ∧ m.read 13 = BitVec.ofNat 8 v.toNat
          ∧ ∀ i, i < 10 ∨ 14 ≤ i → m.read i = s.tpl.read i)
      ∧ State.reset.nodeIp = 0

/-- R37: `BCAST_IP` reads and writes the broadcast address, which the next reply goes to where broadcast is enabled;
reset 0. -/
def Obligations.BcastIpRegister : Prop :=
  ∀ (s : State) (v : Word32),
    exec (.csrRead 0x03#16) s = .next { s with rdata := s.bcastIp }
      ∧ exec (.csrWrite 0x03#16 v) s = .next { s with bcastIp := v, rdata := 0 }
      ∧ (∀ sender, s.bcastEn = true →
          ∃ t r, exec (.artPollReplyEmitted sender) { s with bcastIp := v, rdata := 0 } = .next t
            ∧ t.tx = s.tx ++ [r] ∧ r.dest = v)
      ∧ State.reset.bcastIp = 0

/-- R38: `NUM_SLOTS` reads `OUT_SLOTS`; a write of at most 512 sets it, a larger one has no effect; in a legal state a
read gives at most 512; reset 0. -/
def Obligations.NumSlotsRegister : Prop :=
  ∀ (s : State) (v : Word32),
    exec (.csrRead 0x04#16) s = .next { s with rdata := BitVec.ofNat 32 s.outSlots }
      ∧ (v.toNat ≤ 512 → exec (.csrWrite 0x04#16 v) s = .next { s with outSlots := v.toNat, rdata := 0 })
      ∧ (512 < v.toNat → exec (.csrWrite 0x04#16 v) s = .next { s with rdata := 0 })
      ∧ (s.Inv → ∃ t, exec (.csrRead 0x04#16) s = .next t ∧ t.rdata.toNat = s.outSlots ∧ t.rdata.toNat ≤ 512)
      ∧ State.reset.outSlots = 0

/-- R39, R40: `RESULT` and `RX_LEN` read the flag and the length, reading changes nothing, and a write has no effect;
reset 0. -/
def Obligations.ReadOnlyRegisters : Prop :=
  ∀ (s : State) (v : Word32),
    exec (.csrRead 0x05#16) s = .next { s with rdata := BitVec.ofNat 32 s.result.toNat }
      ∧ exec (.csrRead 0x06#16) s = .next { s with rdata := BitVec.ofNat 32 s.rxLen }
      ∧ (s.Inv → (BitVec.ofNat 32 s.rxLen).toNat = s.rxLen ∧ s.rxLen < 2 ^ 16)
      ∧ exec (.csrWrite 0x05#16 v) s = .next { s with rdata := 0 }
      ∧ exec (.csrWrite 0x06#16 v) s = .next { s with rdata := 0 }
      ∧ State.reset.result = false ∧ State.reset.rxLen = 0

/-- R41: the numbers 0x0007 to 0xFFFF read 0 and ignore writes; the reserved bits of `CTRL`, `PORT_ADDR`, `RESULT` and,
in a legal state, `NUM_SLOTS` and `RX_LEN` read 0, and those of `CTRL` and `PORT_ADDR` ignore writes. -/
def Obligations.ReservedRegistersAreInert : Prop :=
  (∀ (s : State) (idx : Index) (v : Word32), 7 ≤ idx.toNat →
      exec (.csrRead idx) s = .next { s with rdata := 0 } ∧ exec (.csrWrite idx v) s = .next { s with rdata := 0 })
    ∧ (∀ s : State, csrValue 0x00#16 s &&& 0xFFFFFFFC#32 = 0 ∧ csrValue 0x01#16 s &&& 0xFFFF8000#32 = 0
        ∧ csrValue 0x05#16 s &&& 0xFFFFFFFE#32 = 0)
    ∧ (∀ s : State, s.Inv →
        csrValue 0x04#16 s &&& 0xFFFFFC00#32 = 0 ∧ csrValue 0x06#16 s &&& 0xFFFF0000#32 = 0)
    ∧ ∀ (s : State) (v : Word32),
        exec (.csrWrite 0x00#16 v) s = exec (.csrWrite 0x00#16 (v &&& 0x00000003#32)) s
          ∧ exec (.csrWrite 0x01#16 v) s = exec (.csrWrite 0x01#16 (v &&& 0x00007FFF#32)) s

/-! ## Host operations: byte spaces -/

/-- R222, R223: an `OUT_READ` below index 512 gives the level zero-extended, from 512 on 0, and changes nothing; an
`OUT_WRITE` below index 512 stores the byte in `OUT` at that index and nowhere else, from 512 on nothing; no other state
changes. -/
def Obligations.OutReadAndOutWriteLevels : Prop :=
  (∀ (s : State) (idx : Index),
      (idx.toNat < 512 → exec (.outRead idx) s = .next { s with rdata := BitVec.ofNat 32 (s.out.read idx.toNat).toNat })
        ∧ (512 ≤ idx.toNat → exec (.outRead idx) s = .next { s with rdata := 0 }))
    ∧ ∀ (s : State) (idx : Index) (byte : Byte),
        (idx.toNat < 512 → ∃ m, exec (.outWrite idx byte) s = .next { s with out := m, rdata := 0 }
            ∧ m.read idx.toNat = byte ∧ ∀ j, j ≠ idx.toNat → m.read j = s.out.read j)
          ∧ (512 ≤ idx.toNat → exec (.outWrite idx byte) s = .next { s with rdata := 0 })

/-- R224: a template byte below index 239 is read zero-extended, an index from 239 on reads 0, and nothing else
changes. -/
def Obligations.TplReadGivesTheTemplateByte : Prop :=
  ∀ (s : State) (idx : Index),
    (idx.toNat < 239 → exec (.tplRead idx) s = .next { s with rdata := BitVec.ofNat 32 (s.tpl.read idx.toNat).toNat })
      ∧ (239 ≤ idx.toNat → exec (.tplRead idx) s = .next { s with rdata := 0 })

/-- R225: the byte is stored in the template at a host-owned offset (16 to 238 but 190) and nowhere else; at every other
offset nothing is stored; no other state changes. -/
def Obligations.TplWriteStoresAtHostOwnedOffsetsOnly : Prop :=
  ∀ (s : State) (idx : Index) (byte : Byte),
    (16 ≤ idx.toNat → idx.toNat < 239 → idx.toNat ≠ 190 →
        ∃ m, exec (.tplWrite idx byte) s = .next { s with tpl := m, rdata := 0 }
          ∧ m.read idx.toNat = byte ∧ ∀ j, j ≠ idx.toNat → m.read j = s.tpl.read j)
      ∧ (idx.toNat < 16 ∨ 239 ≤ idx.toNat ∨ idx.toNat = 190 →
          exec (.tplWrite idx byte) s = .next { s with rdata := 0 })

/-- R226: a byte of the last datagram is read zero-extended, an index at or beyond `RX_LEN` reads 0, and nothing
else changes. -/
def Obligations.RxReadGivesTheDatagramByte : Prop :=
  ∀ (s : State) (idx : Index),
    (idx.toNat < s.rxLen → exec (.rxRead idx) s = .next { s with rdata := BitVec.ofNat 32 (s.rx.read idx.toNat).toNat })
      ∧ (s.rxLen ≤ idx.toNat → exec (.rxRead idx) s = .next { s with rdata := 0 })

/-- R228, R229: `NOP` and the seven reserved operations change no state and return 0. -/
def Obligations.NopAndReservedOperationsDoNothing : Prop :=
  ∀ (s : State) (i : Instr),
    i ∈ [Instr.nop, .reservedOp9, .reservedOpA, .reservedOpB, .reservedOpC, .reservedOpD, .reservedOpE, .reservedOpF] →
      exec i s = .next { s with rdata := 0 }

/-- R71: a write is seen by the operation after it: `OUT_WRITE` by the next `OUT_READ`, `PORT_ADDR` by the address match
of the next ArtDMX, `TPL_WRITE` in the bytes of the next poll reply. -/
def Obligations.WritesAreSeenByTheNextOperation : Prop :=
  (∀ (s t u : State) (idx : Index) (byte : Byte), idx.toNat < 512 → exec (.outWrite idx byte) s = .next t →
      exec (.outRead idx) t = .next u → u.rdata.toNat = byte.toNat)
    ∧ (∀ (s t : State) (v : Word32) (sender : Ip) (body : List Byte), exec (.csrWrite 0x01#16 v) s = .next t →
        10 + body.length ≤ Config.rxCap →
        (bodyByte body 14).toNat + 256 * (bodyByte body 15).toNat ≠ v.toNat % 2 ^ 15 →
        exec (.artDMX sender body) t = .next (droppedState (packet 0x5000#16 body) t))
    ∧ (∀ (s t u : State) (idx : Index) (byte : Byte) (sender : Ip),
        16 ≤ idx.toNat → idx.toNat < 239 → idx.toNat ≠ 190 → exec (.tplWrite idx byte) s = .next t →
        exec (.artPollReplyEmitted sender) t = .next u →
        ∃ r, u.tx = s.tx ++ [r] ∧ r.bytes.getD idx.toNat 0#8 = byte)

/-! ## INGEST -/

/-- R121: with `PRESENT = 0` only `RESULT` and the read datum are written, both 0. -/
def Obligations.IngestWithoutADatagram : Prop :=
  ∀ s : State, exec (.ingest false) s = .next { s with result := false, rdata := 0 }

/-- Entry 6 (DEDUCED, the model's reading of R95 and R227): with `PRESENT = 1` and no datagram at the port the receive
finds none, as in R121. -/
def Obligations.IngestAtAnEmptyPort : Prop :=
  ∀ s : State, s.port = [] → exec (.ingest true) s = .next { s with result := false, rdata := 0 }

/-- R122: a datagram longer than `RX_CAP` is dropped whole: `RESULT` and the read datum are 0 and nothing else changes,
neither `RX` nor `RX_LEN`; so for every row of the format artnet_datagram. (An `INGEST` runs the row of its datagram:
`IngestRunsTheRowOfItsDatagram`.) -/
def Obligations.OversizeDatagramIsDroppedWhole : Prop :=
  ∀ (s : State) (d : Datagram), Config.rxCap < d.bytes.length →
    exec (decodeDatagram d) s = .next { s with result := false, rdata := 0 }

/-- R123: a datagram that fits is captured: `RX_LEN` is its length, `RX` holds its bytes, every later byte of `RX` is as
before; and `RX_READ` then gives its bytes. -/
def Obligations.IngestCapturesTheDatagram : Prop :=
  ∀ (s : State) (d : Datagram) (rest : List Datagram), s.port = d :: rest → d.len.toNat = d.bytes.length →
    d.bytes.length ≤ Config.rxCap →
    ∃ t, exec (.ingest true) s = .next t ∧ Captured d.bytes s t ∧ t.port = rest
      ∧ ∀ idx : Index, idx.toNat < d.bytes.length →
          exec (.rxRead idx) t = .next { t with rdata := (d.bytes.getD idx.toNat 0#8).setWidth 32 }

/-- R120, R126: an `INGEST` of a datagram does exactly what the opcode-table row of that datagram means. -/
def Obligations.IngestRunsTheRowOfItsDatagram : Prop :=
  ∀ (s : State) (d : Datagram) (rest : List Datagram), s.port = d :: rest → d.len.toNat = d.bytes.length →
    exec (.ingest true) s = exec (decodeDatagram d) { s with port := rest }

/-- R180, R184: the row of an ArtAddress packet's command means exactly what the ArtAddress row of the same packet
means. -/
def Obligations.CommandRowsAgreeWithArtAddress : Prop :=
  ∀ (s : State) (d : Datagram) (i : Instr), decodeCommand d = .ok i → exec i s = exec (decodeDatagram d) s

/-- R132, R131: after an `INGEST`, `RESULT` is 1 exactly for the verdicts `DmxAcceptedA`, `DmxAcceptedB`,
`DmxAcceptedSingle` and `AddressCleared`, and the read datum is that bit. -/
def Obligations.ResultIsOneExactlyForTheChangedVerdicts : Prop :=
  ∀ (s t : State) (present : Bool), exec (.ingest present) s = .next t →
    (t.result = true ↔ ingestVerdict present s = .dmxAcceptedA ∨ ingestVerdict present s = .dmxAcceptedB
        ∨ ingestVerdict present s = .dmxAcceptedSingle ∨ ingestVerdict present s = .addressCleared)
      ∧ t.rdata = BitVec.ofNat 32 t.result.toNat

/-- R251: every silent drop leaves `RESULT` 0 and changes nothing but the capture (none where no datagram came or it does
not fit), and transmits nothing; the three outcomes that transmit do so once, and only `AddressCleared` of them has
`RESULT` 1. -/
def Obligations.SilentDropsChangeNothingButTheCapture : Prop :=
  ∀ (s : State) (d : Datagram) (rest : List Datagram), s.port = d :: rest → d.len.toNat = d.bytes.length →
    (ingestVerdict true s = .oversize →
        exec (.ingest true) s = .next { s with port := rest, result := false, rdata := 0 })
      ∧ ((ingestVerdict true s).isDrop = true → ingestVerdict true s ≠ .oversize →
          exec (.ingest true) s = .next (droppedState d.bytes { s with port := rest }))
      ∧ (ingestVerdict true s = .pollReplied ∨ ingestVerdict true s = .addressApplied
          ∨ ingestVerdict true s = .addressCleared →
          ∃ t r, exec (.ingest true) s = .next t ∧ t.tx = s.tx ++ [r]
            ∧ (t.result = true ↔ ingestVerdict true s = .addressCleared))
      ∧ (ingestVerdict false s = .noDatagram
          ∧ exec (.ingest false) s = .next { s with result := false, rdata := 0 })

/-- R130: a datagram with a valid header and any opcode but 0x5000, 0x2000 and 0x6000 is a no-op: result 0, nothing but
the capture; both rows of the opcode table for it, and the `INGEST` of it. -/
def Obligations.OtherOpcodesAreNoOps : Prop :=
  (∀ (s : State) (sender : Ip) (op : Opcode) (body : List Byte), 10 + body.length ≤ Config.rxCap →
      op ≠ 0x5000#16 → op ≠ 0x2000#16 → op ≠ 0x6000#16 →
      exec (.artUnknownOpcode sender op body) s = .next (droppedState (packet op body) s)
        ∧ ∀ rest, s.port = datagramOf sender (packet op body) :: rest →
            exec (.ingest true) s = .next (droppedState (packet op body) { s with port := rest }))
    ∧ ∀ (s : State) (sender : Ip) (body : List Byte), 10 + body.length ≤ Config.rxCap →
        exec (.artPollReplyReceived sender body) s = .next (droppedState (packet 0x2100#16 body) s)

/-- R124, R120: a datagram of fewer than ten bytes, or whose first eight bytes are not the magic, is captured and
otherwise a no-op with result 0; the row of the opcode table for it, and the `INGEST` of it. -/
def Obligations.NotArtNetIsANoOp : Prop :=
  ∀ (s : State) (sender : Ip) (bytes : List Byte), bytes.length ≤ Config.rxCap →
    bytes.length < 10 ∨ bytes.take 8 ≠ Config.magic →
    exec (.notArtNet sender bytes) s = .next (droppedState bytes s)
      ∧ ∀ rest, s.port = datagramOf sender bytes :: rest →
          exec (.ingest true) s = .next (droppedState bytes { s with port := rest })

/-- I2, R123, R272: bytes of `RX` at or beyond `RX_LEN` are never observed: two states that differ only in them take the
same step, up to bytes of `RX` at or beyond the new `RX_LEN`. -/
def Obligations.StaleReceiveBytesAreNeverObserved : Prop :=
  ∀ (s : State) (m : Memory), (∀ i, i < s.rxLen → m.read i = s.rx.read i) →
    (∀ t, step s = .next t → ∃ m', step { s with rx := m } = .next { t with rx := m' }
        ∧ ∀ i, i < t.rxLen → m'.read i = t.rx.read i)
      ∧ ∀ r, step s = .refused r → step { s with rx := m } = .refused r

/-! ## ArtDMX -/

/-- R150: in single-source mode a frame from the bound sender, or from any sender where none is bound, is copied to `OUT`
with the rest of the 512 bytes zeroed, `SLOTS_A` and `OUT_SLOTS` take its count, its sender is source A, and the result
is 1; `A`, `B`, `SRC_B` and `SLOTS_B` are untouched. -/
def Obligations.SingleSourceFrameIsCopied : Prop :=
  ∀ (s : State) (sender : Ip) (body : List Byte), FrameFits body s → s.htpEn = false →
    s.srcA = none ∨ s.srcA = some sender →
    ∃ t, exec (.artDMX sender body) s = .next t
      ∧ t.srcA = some sender ∧ t.srcB = s.srcB
      ∧ (∀ i, i < bodySlots body → t.out.read i = bodyLevel body i)
      ∧ (∀ i, bodySlots body ≤ i → i < 512 → t.out.read i = 0)
      ∧ (∀ i, 512 ≤ i → t.out.read i = s.out.read i)
      ∧ t.slotsA = bodySlots body ∧ t.outSlots = bodySlots body ∧ t.slotsB = s.slotsB ∧ t.a = s.a ∧ t.b = s.b
      ∧ Captured (packet 0x5000#16 body) s t ∧ Reported true t ∧ IngestFrame s t ∧ AddressFrame s t

/-- R145, R149 and the binding of R144: in HTP mode a frame from source A, or from any sender where A is unbound,
overwrites `A[0..n)`, sets `SLOTS_A`, and recomputes the merge over the larger count; where it binds A it first zeroes
`B[0..512)`; the result is 1, and `SRC_B` and `SLOTS_B` are unchanged. -/
def Obligations.SourceAFrameIsMerged : Prop :=
  ∀ (s : State) (sender : Ip) (body : List Byte), FrameFits body s → s.htpEn = true →
    s.srcA = none ∨ s.srcA = some sender →
    ∃ t, exec (.artDMX sender body) s = .next t
      ∧ t.srcA = some sender ∧ t.srcB = s.srcB
      ∧ (∀ i, t.a.read i = if i < bodySlots body then bodyLevel body i else s.a.read i)
      ∧ (∀ i, t.b.read i = if s.srcA = none ∧ i < 512 then 0 else s.b.read i)
      ∧ t.slotsA = bodySlots body ∧ t.slotsB = s.slotsB ∧ t.outSlots = max t.slotsA t.slotsB
      ∧ (∀ i, i < t.outSlots → (t.out.read i).toNat = max (t.a.read i).toNat (t.b.read i).toNat)
      ∧ (∀ i, t.outSlots ≤ i → t.out.read i = s.out.read i)
      ∧ Captured (packet 0x5000#16 body) s t ∧ Reported true t ∧ IngestFrame s t ∧ AddressFrame s t

/-- R146, R147, R149: in HTP mode with source A bound to another sender, a frame from source B, or from any sender where
B is unbound, overwrites `B[0..n)`, sets `SLOTS_B` and recomputes the merge; binding B zeroes nothing; the result is 1,
and `SRC_A`, `A` and `SLOTS_A` are unchanged. -/
def Obligations.SourceBFrameIsMerged : Prop :=
  ∀ (s : State) (sender other : Ip) (body : List Byte), FrameFits body s → s.htpEn = true →
    s.srcA = some other → other ≠ sender → s.srcB = none ∨ s.srcB = some sender →
    ∃ t, exec (.artDMX sender body) s = .next t
      ∧ t.srcA = s.srcA ∧ t.srcB = some sender
      ∧ t.a = s.a ∧ (∀ i, t.b.read i = if i < bodySlots body then bodyLevel body i else s.b.read i)
      ∧ t.slotsA = s.slotsA ∧ t.slotsB = bodySlots body ∧ t.outSlots = max t.slotsA t.slotsB
      ∧ (∀ i, i < t.outSlots → (t.out.read i).toNat = max (t.a.read i).toNat (t.b.read i).toNat)
      ∧ (∀ i, t.outSlots ≤ i → t.out.read i = s.out.read i)
      ∧ Captured (packet 0x5000#16 body) s t ∧ Reported true t ∧ IngestFrame s t ∧ AddressFrame s t

/-- R148, R151: a frame of a third sender in HTP mode, or of any sender but the bound one in single-source mode, is
dropped: nothing changes but the capture, and the result is 0. -/
def Obligations.OtherSendersAreDropped : Prop :=
  ∀ (s : State) (sender x : Ip) (body : List Byte), FrameFits body s → s.srcA = some x → x ≠ sender →
    (s.htpEn = true → (∃ y, s.srcB = some y ∧ y ≠ sender) →
        exec (.artDMX sender body) s = .next (droppedState (packet 0x5000#16 body) s))
      ∧ (s.htpEn = false → exec (.artDMX sender body) s = .next (droppedState (packet 0x5000#16 body) s))

/-- R140, R141, R142: an ArtDMX packet that is shorter than 18 bytes, does not match the Address Model, is truncated or
has more than 512 slots is dropped: nothing changes but the capture (no level buffer, no source slot), and the result
is 0. -/
def Obligations.RejectedFramesChangeNothing : Prop :=
  ∀ (s : State) (sender : Ip) (body : List Byte), 10 + body.length ≤ Config.rxCap →
    10 + body.length < 18
      ∨ (bodyByte body 14).toNat ≠ s.paLoNat ∨ (bodyByte body 15).toNat ≠ s.net.toNat
      ∨ 10 + body.length < 18 + bodySlots body
      ∨ 512 < bodySlots body →
    exec (.artDMX sender body) s = .next (droppedState (packet 0x5000#16 body) s)

/-- 90_conflicts.md C8, R149, R150: after every accepted ArtDMX frame `OUT_SLOTS` is the larger of the two counts and, in
HTP mode, every level below it is the larger of the two sources' levels. -/
def Obligations.AcceptedFramesLeaveTheMaximum : Prop :=
  ∀ (s : State) (d : Datagram) (rest : List Datagram), s.Inv → s.port = d :: rest → d.len.toNat = d.bytes.length →
    ingestVerdict true s = .dmxAcceptedA ∨ ingestVerdict true s = .dmxAcceptedB
      ∨ ingestVerdict true s = .dmxAcceptedSingle →
    ∃ t, exec (.ingest true) s = .next t ∧ t.outSlots = max t.slotsA t.slotsB
      ∧ (s.htpEn = true → ∀ i, i < t.outSlots → (t.out.read i).toNat = max (t.a.read i).toNat (t.b.read i).toNat)

/-! ## ArtAddress -/

/-- R129, R180 to R184: an ArtAddress packet of at least 107 bytes and version at least 14 applies its three fields, runs
its command (0x01 unbinds both sources; 0x90 unbinds A, zeroes `OUT`, sets 512 slots; any other changes no merge state),
then always sends a reply with the new port-address, to `BCAST_IP` where `BCAST_EN = 1` and else to its sender; the result
is 1 exactly for 0x90. -/
def Obligations.ArtAddressIsCarriedOut : Prop :=
  ∀ (s : State) (sender : Ip) (body : List Byte), AddressAccepted body →
    ∃ t, exec (.artAddress sender body) s = .next t
      ∧ FieldsApplied body s t ∧ Replied sender s t ∧ Captured (packet 0x6000#16 body) s t ∧ IngestFrame s t
      ∧ Reported (decide (bodyByte body 106 = 0x90#8)) t
      ∧ (bodyByte body 106 ≠ 0x01#8 → bodyByte body 106 ≠ 0x90#8 → MergeFrame s t)
      ∧ (bodyByte body 106 = 0x01#8 → MergeFrame { s with srcA := none, srcB := none } t)
      ∧ (bodyByte body 106 = 0x90#8 →
          MergeFrame { s with srcA := none, outSlots := 512, out := t.out } t
            ∧ (∀ i, i < 512 → t.out.read i = 0) ∧ ∀ i, 512 ≤ i → t.out.read i = s.out.read i)

/-- R184, R180: the row of an ArtAddress packet with a command other than 0x01 and 0x90: fields and reply, no merge
state changes, result 0. -/
def Obligations.NoCommandChangesNoMergeState : Prop :=
  ∀ (s : State) (sender : Ip) (front : List Byte) (c : Byte) (tail : List Byte), front.length = 96 →
    AddressAccepted (front ++ c :: tail) → c ≠ 0x01#8 → c ≠ 0x90#8 →
    ∃ t, exec (.artAddressNoCommand sender front c tail) s = .next t
      ∧ FieldsApplied (front ++ c :: tail) s t ∧ Replied sender s t ∧ MergeFrame s t
      ∧ Captured (packet 0x6000#16 (front ++ c :: tail)) s t ∧ IngestFrame s t ∧ Reported false t

/-- R152: the row of an ArtAddress packet with command 0x01: both source slots are unbound in either mode, no buffer and
no count changes, the fields are applied and the reply goes out, result 0. -/
def Obligations.CancelMergeUnbindsBothSources : Prop :=
  ∀ (s : State) (sender : Ip) (front tail : List Byte), front.length = 96 →
    AddressAccepted (front ++ 0x01#8 :: tail) →
    ∃ t, exec (.artAddressCancelMerge sender front tail) s = .next t
      ∧ t.srcA = none ∧ t.srcB = none ∧ t.a = s.a ∧ t.b = s.b ∧ t.out = s.out
      ∧ t.slotsA = s.slotsA ∧ t.slotsB = s.slotsB ∧ t.outSlots = s.outSlots
      ∧ FieldsApplied (front ++ 0x01#8 :: tail) s t ∧ Replied sender s t
      ∧ Captured (packet 0x6000#16 (front ++ 0x01#8 :: tail)) s t ∧ IngestFrame s t ∧ Reported false t

/-- R153: the row of an ArtAddress packet with command 0x90: source A is unbound, every byte of `OUT` is 0, `OUT_SLOTS` is
512, the result is 1 though no levels came; `A`, `B`, `SRC_B`, `SLOTS_A` and `SLOTS_B` are unchanged; the fields are
applied and the reply goes out. -/
def Obligations.ClearBufferBlacksOut : Prop :=
  ∀ (s : State) (sender : Ip) (front tail : List Byte), front.length = 96 →
    AddressAccepted (front ++ 0x90#8 :: tail) →
    ∃ t, exec (.artAddressClearBuffer sender front tail) s = .next t
      ∧ t.srcA = none ∧ (∀ i, i < 512 → t.out.read i = 0) ∧ (∀ i, 512 ≤ i → t.out.read i = s.out.read i)
      ∧ t.outSlots = 512 ∧ t.srcB = s.srcB ∧ t.a = s.a ∧ t.b = s.b ∧ t.slotsA = s.slotsA ∧ t.slotsB = s.slotsB
      ∧ FieldsApplied (front ++ 0x90#8 :: tail) s t ∧ Replied sender s t
      ∧ Captured (packet 0x6000#16 (front ++ 0x90#8 :: tail)) s t ∧ IngestFrame s t ∧ Reported true t

/-- R129: an ArtAddress packet of fewer than 107 bytes, or of version below 14, is dropped: nothing changes but the
capture and no reply is sent; the same for the three command rows. -/
def Obligations.RejectedArtAddressChangesNothing : Prop :=
  (∀ (s : State) (sender : Ip) (body : List Byte), 10 + body.length ≤ Config.rxCap →
      10 + body.length < 107 ∨ (bodyByte body 11).toNat < 14 →
      exec (.artAddress sender body) s = .next (droppedState (packet 0x6000#16 body) s))
    ∧ ∀ (s : State) (sender : Ip) (front : List Byte) (c : Byte) (tail : List Byte), front.length = 96 →
        107 + tail.length ≤ Config.rxCap → (bodyByte front 11).toNat < 14 →
        exec (.artAddressNoCommand sender front c tail) s
            = .next (droppedState (packet 0x6000#16 (front ++ c :: tail)) s)
          ∧ exec (.artAddressCancelMerge sender front tail) s
            = .next (droppedState (packet 0x6000#16 (front ++ 0x01#8 :: tail)) s)
          ∧ exec (.artAddressClearBuffer sender front tail) s
            = .next (droppedState (packet 0x6000#16 (front ++ 0x90#8 :: tail)) s)

/-! ## ArtPoll and the reply -/

/-- R128, R200: an ArtPoll of at least 14 bytes and version at least 14 sends one reply, to
`BCAST_IP` where `BCAST_EN = 1` and else to its sender; no Address Model and no merge state changes, result 0. -/
def Obligations.ArtPollIsAnswered : Prop :=
  ∀ (s : State) (sender : Ip) (body : List Byte), 10 + body.length ≤ Config.rxCap → 14 ≤ 10 + body.length →
    14 ≤ (bodyByte body 11).toNat →
    ∃ t, exec (.artPoll sender body) s = .next t
      ∧ Replied sender s t ∧ MergeFrame s t ∧ t.net = s.net ∧ t.subnet = s.subnet ∧ t.univ = s.univ
      ∧ Captured (packet 0x2000#16 body) s t ∧ IngestFrame s t ∧ Reported false t

/-- R128: an ArtPoll of fewer than 14 bytes, or of version below 14, is dropped: nothing changes but the capture. -/
def Obligations.RejectedArtPollChangesNothing : Prop :=
  ∀ (s : State) (sender : Ip) (body : List Byte), 10 + body.length ≤ Config.rxCap →
    10 + body.length < 14 ∨ (bodyByte body 11).toNat < 14 →
    exec (.artPoll sender body) s = .next (droppedState (packet 0x2000#16 body) s)

/-- R200 to R203: the encoder writes the live port-address low byte at offset 190 of the template, where it persists,
writes nothing else of it, and emits the whole template once, to the broadcast address where broadcast is enabled, else to
the sender, at port 6454; no other state changes. -/
def Obligations.PollReplyRefreshesAndTransmitsTheTemplate : Prop :=
  ∀ (s : State) (sender : Ip),
    ∃ m, (m.read 190).toNat = s.paLoNat ∧ (∀ i, i ≠ 190 → m.read i = s.tpl.read i)
      ∧ exec (.artPollReplyEmitted sender) s
        = .next { s with tpl := m
                         tx := s.tx ++ [⟨if s.bcastEn then s.bcastIp else sender, 6454#16, (List.range 239).map m.read⟩] }

/-- R204: in a legal state the reply's bytes are 239: the magic, the opcode 0x2100 low byte first, the four octets of
`NODE_IP` first octet first, 0x36 and 0x19, the port-address low byte at 190, and the host-owned bytes as last written; its
row of the opcode table is `ArtPollReply_emitted`. -/
def Obligations.ReplyBytesFollowTheLayout : Prop :=
  ∀ (s t : State) (sender : Ip), s.Inv → exec (.artPollReplyEmitted sender) s = .next t →
    ∃ r, t.tx = s.tx ++ [r] ∧ r.bytes.length = 239
      ∧ r.bytes.take 10 = [0x41#8, 0x72#8, 0x74#8, 0x2D#8, 0x4E#8, 0x65#8, 0x74#8, 0x00#8, 0x00#8, 0x21#8]
      ∧ (∀ k, k < 4 → (r.bytes.getD (10 + k) 0#8).toNat = s.nodeIp.toNat / 256 ^ (3 - k) % 256)
      ∧ r.bytes.getD 14 0#8 = 0x36#8 ∧ r.bytes.getD 15 0#8 = 0x19#8 ∧ (r.bytes.getD 190 0#8).toNat = s.paLoNat
      ∧ (∀ i, 16 ≤ i → i < 239 → i ≠ 190 → r.bytes.getD i 0#8 = s.tpl.read i)
      ∧ decode (.emittedDatagram r.dest r.bytes) = .ok (.artPollReplyEmitted r.dest)

/-! ## Whole-machine rules -/

/-- R72: a step appends at most one transmit request, after every earlier one, and only an `INGEST` appends any. -/
def Obligations.OneTransmitRequestPerIngest : Prop :=
  ∀ s t : State, step s = .next t →
    (t.tx = s.tx ∨ ∃ r, t.tx = s.tx ++ [r])
      ∧ (t.tx ≠ s.tx → ∃ w rest, s.hostOps = w :: rest ∧ decodeWord w = .ingest true)

/-- R43, R32: no operation but an `INGEST` writes `RESULT`, and every `INGEST` writes it: it does not depend on what it
was. -/
def Obligations.OnlyIngestWritesResult : Prop :=
  (∀ (s t : State) (w : HostWord) (rest : List HostWord), s.hostOps = w :: rest →
      (∀ p, decodeWord w ≠ .ingest p) → step s = .next t → t.result = s.result)
    ∧ ∀ (s t : State) (p r : Bool), exec (.ingest p) s = .next t → exec (.ingest p) { s with result := r } = .next t

/-- R23: `HTP_EN` is set only by a write of 1 to `CTRL` bit 0, and no step clears it. -/
def Obligations.HtpEnableIsOneWay : Prop :=
  ∀ s t : State, step s = .next t →
    (s.htpEn = true → t.htpEn = true)
      ∧ (s.htpEn = false → t.htpEn = true →
          ∃ w rest v, s.hostOps = w :: rest ∧ decodeWord w = .csrWrite 0x00#16 v ∧ v.getLsbD 0 = true)

/-- R21: the Address Model is written only by a host write of `PORT_ADDR` and by an ArtAddress packet. -/
def Obligations.AddressModelHasTwoWriters : Prop :=
  ∀ s t : State, step s = .next t → ¬(t.net = s.net ∧ t.subnet = s.subnet ∧ t.univ = s.univ) →
    ∃ w rest, s.hostOps = w :: rest
      ∧ ((∃ v, decodeWord w = .csrWrite 0x01#16 v)
          ∨ (decodeWord w = .ingest true
              ∧ ∃ d ds sender body, s.port = d :: ds ∧ decodeDatagram d = .artAddress sender body))

/-- R31, R205: every template byte has one writer: offset 190 the encoder, during an `INGEST`; offsets 10 to 13 a write of
`NODE_IP`; a host-owned offset a `TPL_WRITE` of it; the fixed offsets none. -/
def Obligations.TemplateBytesHaveOneWriter : Prop :=
  ∀ (s t : State) (i : Nat), step s = .next t → t.tpl.read i ≠ s.tpl.read i →
    ∃ w rest, s.hostOps = w :: rest
      ∧ ((i = 190 ∧ decodeWord w = .ingest true)
          ∨ (10 ≤ i ∧ i ≤ 13 ∧ ∃ v, decodeWord w = .csrWrite 0x02#16 v)
          ∨ (16 ≤ i ∧ i < 239 ∧ i ≠ 190 ∧ ∃ idx byte, decodeWord w = .tplWrite idx byte ∧ idx.toNat = i))

/-- R257: a bound source never times out: source A is unbound or rebound only by cancel-merge, clear-buffer or enable,
source B only by cancel-merge or enable. -/
def Obligations.BoundSourcesStayBound : Prop :=
  ∀ (s t : State) (x : Ip), step s = .next t →
    (s.srcA = some x → t.srcA ≠ some x →
        ∃ w rest, s.hostOps = w :: rest
          ∧ ((decodeWord w = .ingest true
                ∧ ∃ d ds sender body, s.port = d :: ds ∧ decodeDatagram d = .artAddress sender body
                    ∧ (bodyByte body 106 = 0x01#8 ∨ bodyByte body 106 = 0x90#8))
            ∨ (s.htpEn = false ∧ ∃ v, decodeWord w = .csrWrite 0x00#16 v ∧ v.getLsbD 0 = true)))
      ∧ (s.srcB = some x → t.srcB ≠ some x →
        ∃ w rest, s.hostOps = w :: rest
          ∧ ((decodeWord w = .ingest true
                ∧ ∃ d ds sender body, s.port = d :: ds ∧ decodeDatagram d = .artAddress sender body
                    ∧ bodyByte body 106 = 0x01#8)
            ∨ (s.htpEn = false ∧ ∃ v, decodeWord w = .csrWrite 0x00#16 v ∧ v.getLsbD 0 = true)))

/-! ## Sequences -/

/-- R152 (example), E4: after a cancel-merge the next accepted frame, from any sender, makes that sender source A, in
either mode. -/
def Obligations.CancelMergeReseedsSourceA : Prop :=
  ∀ (s t : State) (sender z : Ip) (front tail body : List Byte), front.length = 96 →
    AddressAccepted (front ++ 0x01#8 :: tail) → exec (.artAddressCancelMerge sender front tail) s = .next t →
    FrameFits body t →
    ∃ u, exec (.artDMX z body) t = .next u ∧ u.srcA = some z ∧ u.srcB = none ∧ u.result = true

/-- R278(b): in HTP mode, after a clear-buffer, the next accepted frame of `n` slots brings the stale levels of `A` back
into `OUT` from `n` up to the unchanged `SLOTS_B`. -/
def Obligations.StaleLevelsReturnAfterClearBuffer : Prop :=
  ∀ (s t : State) (sender z : Ip) (front tail body : List Byte), s.Inv → s.htpEn = true → front.length = 96 →
    AddressAccepted (front ++ 0x90#8 :: tail) → exec (.artAddressClearBuffer sender front tail) s = .next t →
    FrameFits body t →
    ∃ u, exec (.artDMX z body) t = .next u ∧ u.outSlots = max (bodySlots body) s.slotsB
      ∧ ∀ i, bodySlots body ≤ i → i < s.slotsB → u.out.read i = s.a.read i

/-- R282: in HTP mode with A unbound and B bound (`BOnly`), a frame from B's sender binds it as A too; `B` is zeroed,
`SLOTS_B` keeps its value, and from then on every frame from another sender is dropped. -/
def Obligations.OneAddressInBothSlots : Prop :=
  ∀ (s : State) (x : Ip) (body : List Byte), s.mergeState = .bOnly → s.htpEn = true → s.srcB = some x →
    FrameFits body s →
    ∃ t, exec (.artDMX x body) s = .next t ∧ t.srcA = some x ∧ t.srcB = some x
      ∧ (∀ i, i < 512 → t.b.read i = 0) ∧ t.slotsB = s.slotsB ∧ t.outSlots = max (bodySlots body) s.slotsB
      ∧ ∀ (y : Ip) (body' : List Byte), y ≠ x → FrameFits body' t →
          exec (.artDMX y body') t = .next (droppedState (packet 0x5000#16 body') t)
end

