-- ==== Sys2Proof/Laws/Encoding.lean ====
section
/-! SUPPORT. The fields of an assembled host word and the parts of an assembled packet. -/

namespace Sys2Proof

/-! ## Host words -/

@[simp] theorem opField_hostWord (op : BitVec 4) (idx : Index) (data : Word32) :
    opField (hostWord op idx data) = op := by
  apply BitVec.eq_of_getLsbD_eq
  intro i hi
  simp only [opField, hostWord, BitVec.getLsbD_extractLsb', BitVec.getLsbD_append]
  simp (disch := omega) only [hi, decide_true, Bool.true_and, if_neg]
  congr 1
  omega

@[simp] theorem idxField_hostWord (op : BitVec 4) (idx : Index) (data : Word32) :
    idxField (hostWord op idx data) = idx := by
  apply BitVec.eq_of_getLsbD_eq
  intro i hi
  simp only [idxField, hostWord, BitVec.getLsbD_extractLsb', BitVec.getLsbD_append]
  simp (disch := omega) only [hi, decide_true, Bool.true_and, if_neg, if_pos]
  congr 1
  omega

@[simp] theorem dataField_hostWord (op : BitVec 4) (idx : Index) (data : Word32) :
    dataField (hostWord op idx data) = data := by
  apply BitVec.eq_of_getLsbD_eq
  intro i hi
  simp only [dataField, hostWord, BitVec.getLsbD_extractLsb', BitVec.getLsbD_append]
  simp (disch := omega) only [hi, decide_true, Bool.true_and, if_pos, Nat.zero_add, if_true]

/-- A byte write uses the low byte of the datum (R92). -/
theorem byteField_eq (w : HostWord) : byteField w = (dataField w).extractLsb' 0 8 := by
  apply BitVec.eq_of_getLsbD_eq
  intro i hi
  simp only [byteField, dataField, BitVec.getLsbD_extractLsb']
  simp (disch := omega) only [hi, decide_true, Bool.true_and, Nat.zero_add]
  simp [show i < 32 by omega]

/-- `PRESENT` is bit 0 of the datum (R92). -/
theorem presentField_eq (w : HostWord) : presentField w = (dataField w).getLsbD 0 := by
  simp [presentField, dataField]

@[simp] theorem byteField_hostWord (op : BitVec 4) (idx : Index) (b : Byte) :
    byteField (hostWord op idx (b.setWidth 32)) = b := by
  rw [byteField_eq, dataField_hostWord]
  apply BitVec.eq_of_getLsbD_eq
  intro i hi
  simp only [BitVec.getLsbD_extractLsb', BitVec.getLsbD_setWidth, Nat.zero_add]
  simp [hi, show i < 32 by omega]

@[simp] theorem presentField_hostWord (op : BitVec 4) (idx : Index) (p : Bool) :
    presentField (hostWord op idx ((BitVec.ofBool p).setWidth 32)) = p := by
  rw [presentField_eq, dataField_hostWord]
  cases p <;> rfl

/-! ## Packets -/

@[simp] theorem length_magic : Config.magic.length = 8 := rfl

@[simp] theorem length_packet (op : Opcode) (body : List Byte) : (packet op body).length = 10 + body.length := by
  simp [packet, opcodeBytes]
  omega

@[simp] theorem take_eight_packet (op : Opcode) (body : List Byte) : (packet op body).take 8 = Config.magic := rfl

@[simp] theorem drop_ten_packet (op : Opcode) (body : List Byte) : (packet op body).drop 10 = body := rfl

@[simp] theorem packetByte_eight (op : Opcode) (body : List Byte) :
    packetByte (packet op body) 8 = op.extractLsb' 0 8 := rfl

@[simp] theorem packetByte_nine (op : Opcode) (body : List Byte) :
    packetByte (packet op body) 9 = op.extractLsb' 8 8 := rfl

/-- The two opcode bytes assemble to the opcode (R83). -/
@[simp] theorem opcodeOfBytes_split (op : Opcode) : opcodeOfBytes (op.extractLsb' 0 8) (op.extractLsb' 8 8) = op := by
  apply BitVec.eq_of_getLsbD_eq
  intro i hi
  simp only [opcodeOfBytes, BitVec.getLsbD_append, BitVec.getLsbD_extractLsb']
  by_cases h : i < 8
  · simp [h]
  · simp only [h, if_false, show i - 8 < 8 by omega, decide_true, Bool.true_and]
    congr 1
    omega

/-- A packet byte at or beyond offset 10 is a byte of the body. -/
theorem packetByte_body (op : Opcode) (body : List Byte) (i : Nat) (hi : 10 ≤ i) :
    packetByte (packet op body) i = body.getD (i - 10) 0#8 := by
  have hl : (Config.magic ++ opcodeBytes op).length = 10 := rfl
  simp only [packetByte, packet, List.getD_eq_getElem?_getD]
  rw [List.getElem?_append_right (by omega), hl]

/-- A byte string with a valid header is the packet of its opcode and its bytes from offset 10 on. -/
theorem packet_of_header {bytes : List Byte} (hl : 10 ≤ bytes.length) (hm : bytes.take 8 = Config.magic) :
    bytes = packet (opcodeOfBytes (packetByte bytes 8) (packetByte bytes 9)) (bytes.drop 10) := by
  obtain ⟨x, y, rest, hd⟩ : ∃ x y rest, bytes.drop 8 = x :: y :: rest := by
    match h : bytes.drop 8 with
    | [] => have := congrArg List.length h; simp at this; omega
    | [_] => have := congrArg List.length h; simp at this; omega
    | x :: y :: rest => exact ⟨x, y, rest, rfl⟩
  have hb : bytes = Config.magic ++ x :: y :: rest := by rw [← hm, ← hd, List.take_append_drop]
  subst hb
  have h8 : packetByte (Config.magic ++ x :: y :: rest) 8 = x := rfl
  have h9 : packetByte (Config.magic ++ x :: y :: rest) 9 = y := rfl
  have h10 : (Config.magic ++ x :: y :: rest).drop 10 = rest := rfl
  have hx : (opcodeOfBytes x y).extractLsb' 0 8 = x := by
    apply BitVec.eq_of_getLsbD_eq
    intro i hi
    simp only [opcodeOfBytes, BitVec.getLsbD_extractLsb', BitVec.getLsbD_append, Nat.zero_add, hi, decide_true,
      Bool.true_and, if_true]
  have hy : (opcodeOfBytes x y).extractLsb' 8 8 = y := by
    apply BitVec.eq_of_getLsbD_eq
    intro i hi
    simp only [opcodeOfBytes, BitVec.getLsbD_extractLsb', BitVec.getLsbD_append, hi, decide_true, Bool.true_and,
      show ¬8 + i < 8 by omega, if_false, Nat.add_sub_cancel_left]
  rw [h8, h9, h10, packet, opcodeBytes, hx, hy]
  simp

/-- An ArtAddress packet splits at its command byte. -/
theorem addressPacket_parts {front : List Byte} (hf : front.length = 96) (c : Byte) (tail : List Byte) :
    ((addressPacket front c tail).drop 10).take 96 = front
      ∧ (addressPacket front c tail).drop 107 = tail ∧ packetByte (addressPacket front c tail) 106 = c := by
  have h107 : (addressPacket front c tail).drop 107 = (front ++ c :: tail).drop 97 := rfl
  refine ⟨?_, ?_, ?_⟩
  · rw [addressPacket, drop_ten_packet, List.take_append_of_le_length (by omega), List.take_of_length_le (by omega)]
  · rw [h107, List.drop_append, List.drop_of_length_le (by omega)]
    simp [hf]
  · rw [addressPacket, packetByte_body _ _ _ (by omega)]
    simp [List.getD_eq_getElem?_getD, hf]

/-- An ArtAddress body of at least 97 bytes is its first 96 bytes, its command byte and the rest. -/
theorem addressBody_split {body : List Byte} (h : 97 ≤ body.length) :
    body = body.take 96 ++ body.getD 96 0#8 :: body.drop 97 := by
  have h96 : 96 < body.length := by omega
  rw [List.getD_eq_getElem?_getD, List.getElem?_eq_getElem h96, Option.getD_some, List.getElem_cons_drop,
    List.take_append_drop]

/-! ## The decoders -/

/-- A packet decodes to the row of its opcode (R89). -/
theorem decodeDatagram_packet (len : BitVec 16) (sender : Ip) (op : Opcode) (body : List Byte) :
    decodeDatagram ⟨len, sender, packet op body⟩
      = if op = 0x5000#16 then .artDMX sender body
        else if op = 0x2000#16 then .artPoll sender body
        else if op = 0x6000#16 then .artAddress sender body
        else if op = 0x2100#16 then .artPollReplyReceived sender body
        else .artUnknownOpcode sender op body := by
  rw [decodeDatagram, if_pos ⟨by rw [length_packet]; exact Nat.le_add_right _ _, take_eight_packet op body⟩]
  simp only [packetByte_eight, packetByte_nine, opcodeOfBytes_split, drop_ten_packet]

/-- Bytes without a valid header decode to `NOT_ARTNET` (R124). -/
theorem decodeDatagram_noHeader {d : Datagram} (h : ¬(10 ≤ d.bytes.length ∧ d.bytes.take 8 = Config.magic)) :
    decodeDatagram d = .notArtNet d.sender d.bytes := by
  rw [decodeDatagram, if_neg h]

/-- An ArtAddress packet with a command byte decodes to the row of that command (R90). -/
theorem decodeCommand_addressPacket (len : BitVec 16) (sender : Ip) {front : List Byte} (hf : front.length = 96)
    (c : Byte) (tail : List Byte) :
    decodeCommand ⟨len, sender, addressPacket front c tail⟩
      = if c = 0x01#8 then .ok (.artAddressCancelMerge sender front tail)
        else if c = 0x90#8 then .ok (.artAddressClearBuffer sender front tail)
        else .ok (.artAddressNoCommand sender front c tail) := by
  obtain ⟨h1, h2, h3⟩ := addressPacket_parts hf c tail
  have hl : (addressPacket front c tail).length = 107 + tail.length := by
    rw [addressPacket, length_packet, List.length_append, List.length_cons]
    omega
  have hop : opcodeOfBytes (packetByte (addressPacket front c tail) 8) (packetByte (addressPacket front c tail) 9)
      = Config.opAddress := by
    rw [addressPacket, packetByte_eight, packetByte_nine, opcodeOfBytes_split]
  rw [decodeCommand, if_pos ⟨by simp only [hl, Config.headerLen]; omega, take_eight_packet _ _, hop⟩,
    if_pos (by simp only [hl]; exact Nat.le_add_right _ _)]
  simp only [h1, h2, h3]

end Sys2Proof
end

