-- ==== Sys2Proof/Laws/Memory.lean ====
section
/-! SUPPORT. What the byte-array operations do: what a read gives after a write, and that every operation keeps the
canonical form and the size of the array. -/

namespace Sys2Proof.Machine

@[simp] theorem Memory.read_nil (i : Nat) : Memory.read [] i = 0#8 := rfl

theorem Memory.read_cons (c : Host.Cell) (m : Memory) (i : Nat) :
    Memory.read (c :: m) i = if c.1 = i then c.2 else Memory.read m i := rfl

theorem Memory.read_eq_zero_of_unlisted {m : Memory} {i : Nat} (h : ∀ c ∈ m, c.1 ≠ i) : m.read i = 0#8 := by
  induction m with
  | nil => rfl
  | cons c m ih =>
    rw [read_cons, if_neg (h c (by simp)), ih fun d hd => h d (by simp [hd])]

theorem Memory.read_append (m m' : Memory) (i : Nat) :
    Memory.read (m ++ m') i = if ∃ c ∈ m, c.1 = i then m.read i else Memory.read m' i := by
  induction m with
  | nil => simp
  | cons c m ih =>
    by_cases hc : c.1 = i
    · simp [read_cons, hc]
    · simp only [List.cons_append, read_cons, hc, if_false, ih, List.mem_cons, exists_eq_or_imp, false_or]

theorem Memory.read_filter {m : Memory} {i : Nat} {p : Nat → Bool} :
    Memory.read (m.filter fun c => p c.1) i = if p i then m.read i else 0#8 := by
  induction m with
  | nil => simp
  | cons c m ih =>
    by_cases hp : p c.1 = true
    · rw [List.filter_cons_of_pos (p := fun c : Host.Cell => p c.1) hp, read_cons, read_cons, ih]
      by_cases hc : c.1 = i
      · subst hc
        simp [hp]
      · simp [hc]
    · rw [List.filter_cons_of_neg (p := fun c : Host.Cell => p c.1) hp, ih, read_cons]
      by_cases hc : c.1 = i
      · subst hc
        simp [hp]
      · simp [hc]

theorem mem_cellsFrom {base : Nat} {bs : List Byte} {c : Host.Cell} (h : c ∈ cellsFrom base bs) :
    base ≤ c.1 ∧ c.1 < base + bs.length ∧ c.2 ≠ 0#8 := by
  induction bs generalizing base with
  | nil => simp [cellsFrom] at h
  | cons v vs ih =>
    simp only [cellsFrom] at h
    split at h
    · have := ih h
      simp only [List.length_cons]
      exact ⟨by omega, by omega, this.2.2⟩
    · rename_i hv
      rcases List.mem_cons.1 h with rfl | h
      · simpa using hv
      · have := ih h
        simp only [List.length_cons]
        exact ⟨by omega, by omega, this.2.2⟩

theorem read_cellsFrom (base : Nat) (bs : List Byte) (i : Nat) (hi : base ≤ i) :
    Memory.read (cellsFrom base bs) i = bs.getD (i - base) 0#8 := by
  induction bs generalizing base with
  | nil => simp [cellsFrom]
  | cons v vs ih =>
    simp only [cellsFrom]
    by_cases hb : i = base
    · subst hb
      split
      · rename_i hv
        rw [Memory.read_eq_zero_of_unlisted]
        · simp [hv]
        · intro c hc
          have := mem_cellsFrom hc
          omega
      · simp [Memory.read_cons]
    · obtain ⟨k, hk⟩ : ∃ k, i - base = k + 1 := ⟨i - base - 1, by omega⟩
      have hk' : i - (base + 1) = k := by omega
      have := ih (base + 1) (by omega)
      split
      · rw [this, hk, hk', List.getD_cons_succ]
      · rw [Memory.read_cons, if_neg (by simpa using fun h => hb h.symm), this, hk, hk', List.getD_cons_succ]

/-- A read after a write: the written bytes inside the written range, the old contents outside it. -/
theorem Memory.read_writeBytes (m : Memory) (base : Nat) (bs : List Byte) (i : Nat) :
    (m.writeBytes base bs).read i
      = if base ≤ i ∧ i < base + bs.length then bs.getD (i - base) 0#8 else m.read i := by
  have hlo : Memory.read (m.filter fun c => decide (c.1 < base)) i = if i < base then m.read i else 0#8 := by
    simpa using read_filter (m := m) (i := i) (p := fun j => decide (j < base))
  have hhi : Memory.read (m.filter fun c => decide (base + bs.length ≤ c.1)) i
      = if base + bs.length ≤ i then m.read i else 0#8 := by
    simpa using read_filter (m := m) (i := i) (p := fun j => decide (base + bs.length ≤ j))
  simp only [writeBytes, List.append_assoc]
  rw [read_append, read_append, hlo, hhi]
  by_cases h1 : i < base
  · rw [if_neg (by omega : ¬(base ≤ i ∧ i < base + bs.length)), if_pos h1]
    split
    · rfl
    · rename_i hno
      have hz : m.read i = 0#8 := by
        have := Memory.read_eq_zero_of_unlisted (m := m.filter fun c => decide (c.1 < base)) (i := i)
          (fun c hc he => hno ⟨c, hc, he⟩)
        rwa [hlo, if_pos h1] at this
      rw [if_neg, if_neg (by omega), hz]
      rintro ⟨c, hc, he⟩
      have := mem_cellsFrom hc
      omega
  · have hno : ¬∃ c ∈ m.filter (fun c => decide (c.1 < base)), c.1 = i := by
      rintro ⟨c, hc, he⟩
      have := (List.mem_filter.1 hc).2
      simp only [decide_eq_true_eq] at this
      omega
    rw [if_neg hno]
    by_cases h2 : i < base + bs.length
    · have hin : base ≤ i ∧ i < base + bs.length := ⟨by omega, h2⟩
      rw [if_pos hin, if_neg (by omega : ¬base + bs.length ≤ i), ← read_cellsFrom base bs i hin.1]
      split
      · rfl
      · rename_i hn
        exact (read_eq_zero_of_unlisted fun c hc he => hn ⟨c, hc, he⟩).symm
    · have hno' : ¬∃ c ∈ cellsFrom base bs, c.1 = i := by
        rintro ⟨c, hc, he⟩
        have := mem_cellsFrom hc
        omega
      rw [if_neg hno', if_pos (by omega : base + bs.length ≤ i),
        if_neg (by omega : ¬(base ≤ i ∧ i < base + bs.length))]

/-- A read after a write of one byte. -/
theorem Memory.read_write (m : Memory) (i : Nat) (v : Byte) (j : Nat) :
    (m.write i v).read j = if j = i then v else m.read j := by
  rw [write, read_writeBytes]
  by_cases h : j = i
  · subst h
    simp
  · rw [if_neg, if_neg h]
    simp only [List.length_singleton]
    omega

/-- A read after a zero fill. -/
theorem Memory.read_zeroRange (m : Memory) (lo hi i : Nat) :
    (m.zeroRange lo hi).read i = if lo ≤ i ∧ i < hi then 0#8 else m.read i := by
  have := read_filter (m := m) (i := i) (p := fun j => decide (j < lo) || decide (hi ≤ j))
  rw [zeroRange, this]
  by_cases h : lo ≤ i ∧ i < hi
  · rw [if_neg, if_pos h]
    simp
    omega
  · rw [if_pos, if_neg h]
    simp
    omega

@[simp] theorem Memory.length_readBytes (m : Memory) (base n : Nat) : (m.readBytes base n).length = n := by
  simp [readBytes]

theorem Memory.getD_readBytes (m : Memory) (base n i : Nat) :
    (m.readBytes base n).getD i 0#8 = if i < n then m.read (base + i) else 0#8 := by
  by_cases h : i < n
  · simp [readBytes, List.getD_eq_getElem?_getD, h]
  · simp [readBytes, List.getD_eq_getElem?_getD, h]

theorem Memory.readBytes_congr {m m' : Memory} {base n : Nat} (h : ∀ i, i < n → m.read (base + i) = m'.read (base + i)) :
    m.readBytes base n = m'.readBytes base n := by
  apply List.map_congr_left
  intro i hi
  exact h i (List.mem_range.1 hi)

/-! ## The canonical form -/

theorem pairwise_cellsFrom (base : Nat) (bs : List Byte) : (cellsFrom base bs).Pairwise fun c d => c.1 < d.1 := by
  induction bs generalizing base with
  | nil => simp [cellsFrom]
  | cons v vs ih =>
    simp only [cellsFrom]
    split
    · exact ih (base + 1)
    · refine List.pairwise_cons.2 ⟨fun c hc => ?_, ih (base + 1)⟩
      have := mem_cellsFrom hc
      simp only
      omega

theorem Memory.wf_filter {m : Memory} (h : m.wf) (p : Host.Cell → Bool) : Memory.wf (m.filter p) :=
  ⟨h.1.filter p, fun c hc => h.2 c (List.mem_filter.1 hc).1⟩

/-- A write keeps the canonical form. -/
theorem Memory.wf_writeBytes {m : Memory} (h : m.wf) (base : Nat) (bs : List Byte) : (m.writeBytes base bs).wf := by
  refine ⟨?_, ?_⟩
  · rw [writeBytes, List.append_assoc, List.pairwise_append, List.pairwise_append]
    refine ⟨h.1.filter _, ⟨pairwise_cellsFrom base bs, h.1.filter _, ?_⟩, ?_⟩
    · intro c hc d hd
      have h1 := mem_cellsFrom hc
      have h2 := (List.mem_filter.1 hd).2
      simp only [decide_eq_true_eq] at h2
      omega
    · intro c hc d hd
      have h1 := (List.mem_filter.1 hc).2
      simp only [decide_eq_true_eq] at h1
      rcases List.mem_append.1 hd with hd | hd
      · have h2 := mem_cellsFrom hd
        omega
      · have h2 := (List.mem_filter.1 hd).2
        simp only [decide_eq_true_eq] at h2
        omega
  · intro c hc
    simp only [writeBytes, List.mem_append, List.mem_filter] at hc
    rcases hc with (hc | hc) | hc
    · exact h.2 c hc.1
    · exact (mem_cellsFrom hc).2.2
    · exact h.2 c hc.1

/-- A write of one byte keeps the canonical form. -/
theorem Memory.wf_write {m : Memory} (h : m.wf) (i : Nat) (v : Byte) : (m.write i v).wf := wf_writeBytes h i [v]

/-- A zero fill keeps the canonical form. -/
theorem Memory.wf_zeroRange {m : Memory} (h : m.wf) (lo hi : Nat) : (m.zeroRange lo hi).wf := wf_filter h _

/-- A write inside an array keeps its size. -/
theorem Memory.below_writeBytes {m : Memory} {size : Nat} (h : m.below size) {base : Nat} {bs : List Byte}
    (hb : base + bs.length ≤ size) : (m.writeBytes base bs).below size := by
  intro c hc
  simp only [writeBytes, List.mem_append, List.mem_filter] at hc
  rcases hc with (hc | hc) | hc
  · exact h c hc.1
  · have := mem_cellsFrom hc
    omega
  · exact h c hc.1

/-- A zero fill keeps the array's size. -/
theorem Memory.below_zeroRange {m : Memory} {size : Nat} (h : m.below size) (lo hi : Nat) :
    (m.zeroRange lo hi).below size := fun c hc => h c (List.mem_filter.1 hc).1

/-- In canonical form, equal reads are equal arrays. -/
theorem Memory.ext_of_wf {m m' : Memory} (h : m.wf) (h' : m'.wf) (he : ∀ i, m.read i = m'.read i) : m = m' := by
  induction m generalizing m' with
  | nil =>
    cases m' with
    | nil => rfl
    | cons d n =>
      have := he d.1
      simp only [read_nil, read_cons, if_true] at this
      exact absurd this.symm (h'.2 d (by simp))
  | cons c m ih =>
    cases m' with
    | nil =>
      have := he c.1
      simp only [read_nil, read_cons, if_true] at this
      exact absurd this (h.2 c (by simp))
    | cons d n =>
      have hc := List.pairwise_cons.1 h.1
      have hd := List.pairwise_cons.1 h'.1
      have hm : ∀ i, i ≤ c.1 → Memory.read m i = 0#8 := fun i hi =>
        read_eq_zero_of_unlisted fun e he' => by have := hc.1 e he'; omega
      have hn : ∀ i, i ≤ d.1 → Memory.read n i = 0#8 := fun i hi =>
        read_eq_zero_of_unlisted fun e he' => by have := hd.1 e he'; omega
      have h1 := he c.1
      have h2 := he d.1
      simp only [read_cons, if_true] at h1 h2
      have hcd : c.1 = d.1 := by
        by_contra hne
        rw [if_neg (by omega)] at h1
        rw [if_neg (by omega)] at h2
        rcases Nat.lt_or_gt_of_ne hne with hlt | hgt
        · rw [hn _ (by omega)] at h1
          exact h.2 c (by simp) h1
        · rw [hm _ (by omega)] at h2
          exact h'.2 d (by simp) h2.symm
      have hv : c.2 = d.2 := by simpa [hcd] using h1
      have hcd' : c = d := Prod.ext hcd hv
      subst hcd'
      congr 1
      refine ih ⟨hc.2, fun e he' => h.2 e (by simp [he'])⟩ ⟨hd.2, fun e he' => h'.2 e (by simp [he'])⟩ fun i => ?_
      by_cases hi : c.1 = i
      · subst hi
        rw [hm _ (by omega), hn _ (by omega)]
      · have := he i
        simpa only [read_cons, if_neg hi] using this

end Sys2Proof.Machine
end

