-- ==== Sys2Proof/Laws/State.lean ====
section
/-! SUPPORT. One lemma per field per named update of the state, true by definition, so that no proof unfolds a record
update. -/

namespace Sys2Proof.Machine

/-! ### answer

Returning a read datum writes `rdata` only (R92). -/

@[simp] theorem answer_net (v : Word32) (s : State) : (answer v s).net = s.net := rfl
@[simp] theorem answer_subnet (v : Word32) (s : State) : (answer v s).subnet = s.subnet := rfl
@[simp] theorem answer_univ (v : Word32) (s : State) : (answer v s).univ = s.univ := rfl
@[simp] theorem answer_htpEn (v : Word32) (s : State) : (answer v s).htpEn = s.htpEn := rfl
@[simp] theorem answer_bcastEn (v : Word32) (s : State) : (answer v s).bcastEn = s.bcastEn := rfl
@[simp] theorem answer_bcastIp (v : Word32) (s : State) : (answer v s).bcastIp = s.bcastIp := rfl
@[simp] theorem answer_nodeIp (v : Word32) (s : State) : (answer v s).nodeIp = s.nodeIp := rfl
@[simp] theorem answer_srcA (v : Word32) (s : State) : (answer v s).srcA = s.srcA := rfl
@[simp] theorem answer_srcB (v : Word32) (s : State) : (answer v s).srcB = s.srcB := rfl
@[simp] theorem answer_slotsA (v : Word32) (s : State) : (answer v s).slotsA = s.slotsA := rfl
@[simp] theorem answer_slotsB (v : Word32) (s : State) : (answer v s).slotsB = s.slotsB := rfl
@[simp] theorem answer_outSlots (v : Word32) (s : State) : (answer v s).outSlots = s.outSlots := rfl
@[simp] theorem answer_a (v : Word32) (s : State) : (answer v s).a = s.a := rfl
@[simp] theorem answer_b (v : Word32) (s : State) : (answer v s).b = s.b := rfl
@[simp] theorem answer_out (v : Word32) (s : State) : (answer v s).out = s.out := rfl
@[simp] theorem answer_rx (v : Word32) (s : State) : (answer v s).rx = s.rx := rfl
@[simp] theorem answer_rxLen (v : Word32) (s : State) : (answer v s).rxLen = s.rxLen := rfl
@[simp] theorem answer_tpl (v : Word32) (s : State) : (answer v s).tpl = s.tpl := rfl
@[simp] theorem answer_result (v : Word32) (s : State) : (answer v s).result = s.result := rfl
@[simp] theorem answer_rdata (v : Word32) (s : State) : (answer v s).rdata = v := rfl
@[simp] theorem answer_tx (v : Word32) (s : State) : (answer v s).tx = s.tx := rfl
@[simp] theorem answer_hostOps (v : Word32) (s : State) : (answer v s).hostOps = s.hostOps := rfl
@[simp] theorem answer_port (v : Word32) (s : State) : (answer v s).port = s.port := rfl

/-! ### finish

The end of an `INGEST` writes `RESULT` and `RDATA` only (R131). -/

@[simp] theorem finish_net (r : Bool) (s : State) : (finish (r, s)).net = s.net := rfl
@[simp] theorem finish_subnet (r : Bool) (s : State) : (finish (r, s)).subnet = s.subnet := rfl
@[simp] theorem finish_univ (r : Bool) (s : State) : (finish (r, s)).univ = s.univ := rfl
@[simp] theorem finish_htpEn (r : Bool) (s : State) : (finish (r, s)).htpEn = s.htpEn := rfl
@[simp] theorem finish_bcastEn (r : Bool) (s : State) : (finish (r, s)).bcastEn = s.bcastEn := rfl
@[simp] theorem finish_bcastIp (r : Bool) (s : State) : (finish (r, s)).bcastIp = s.bcastIp := rfl
@[simp] theorem finish_nodeIp (r : Bool) (s : State) : (finish (r, s)).nodeIp = s.nodeIp := rfl
@[simp] theorem finish_srcA (r : Bool) (s : State) : (finish (r, s)).srcA = s.srcA := rfl
@[simp] theorem finish_srcB (r : Bool) (s : State) : (finish (r, s)).srcB = s.srcB := rfl
@[simp] theorem finish_slotsA (r : Bool) (s : State) : (finish (r, s)).slotsA = s.slotsA := rfl
@[simp] theorem finish_slotsB (r : Bool) (s : State) : (finish (r, s)).slotsB = s.slotsB := rfl
@[simp] theorem finish_outSlots (r : Bool) (s : State) : (finish (r, s)).outSlots = s.outSlots := rfl
@[simp] theorem finish_a (r : Bool) (s : State) : (finish (r, s)).a = s.a := rfl
@[simp] theorem finish_b (r : Bool) (s : State) : (finish (r, s)).b = s.b := rfl
@[simp] theorem finish_out (r : Bool) (s : State) : (finish (r, s)).out = s.out := rfl
@[simp] theorem finish_rx (r : Bool) (s : State) : (finish (r, s)).rx = s.rx := rfl
@[simp] theorem finish_rxLen (r : Bool) (s : State) : (finish (r, s)).rxLen = s.rxLen := rfl
@[simp] theorem finish_tpl (r : Bool) (s : State) : (finish (r, s)).tpl = s.tpl := rfl
@[simp] theorem finish_result (r : Bool) (s : State) : (finish (r, s)).result = r := rfl
@[simp] theorem finish_rdata (r : Bool) (s : State) : (finish (r, s)).rdata = resultDatum r := rfl
@[simp] theorem finish_tx (r : Bool) (s : State) : (finish (r, s)).tx = s.tx := rfl
@[simp] theorem finish_hostOps (r : Bool) (s : State) : (finish (r, s)).hostOps = s.hostOps := rfl
@[simp] theorem finish_port (r : Bool) (s : State) : (finish (r, s)).port = s.port := rfl

/-! ### capture

Capture writes `RX` and `RX_LEN` only (R123). -/

@[simp] theorem capture_net (bytes : List Byte) (s : State) : (capture bytes s).net = s.net := rfl
@[simp] theorem capture_subnet (bytes : List Byte) (s : State) : (capture bytes s).subnet = s.subnet := rfl
@[simp] theorem capture_univ (bytes : List Byte) (s : State) : (capture bytes s).univ = s.univ := rfl
@[simp] theorem capture_htpEn (bytes : List Byte) (s : State) : (capture bytes s).htpEn = s.htpEn := rfl
@[simp] theorem capture_bcastEn (bytes : List Byte) (s : State) : (capture bytes s).bcastEn = s.bcastEn := rfl
@[simp] theorem capture_bcastIp (bytes : List Byte) (s : State) : (capture bytes s).bcastIp = s.bcastIp := rfl
@[simp] theorem capture_nodeIp (bytes : List Byte) (s : State) : (capture bytes s).nodeIp = s.nodeIp := rfl
@[simp] theorem capture_srcA (bytes : List Byte) (s : State) : (capture bytes s).srcA = s.srcA := rfl
@[simp] theorem capture_srcB (bytes : List Byte) (s : State) : (capture bytes s).srcB = s.srcB := rfl
@[simp] theorem capture_slotsA (bytes : List Byte) (s : State) : (capture bytes s).slotsA = s.slotsA := rfl
@[simp] theorem capture_slotsB (bytes : List Byte) (s : State) : (capture bytes s).slotsB = s.slotsB := rfl
@[simp] theorem capture_outSlots (bytes : List Byte) (s : State) : (capture bytes s).outSlots = s.outSlots := rfl
@[simp] theorem capture_a (bytes : List Byte) (s : State) : (capture bytes s).a = s.a := rfl
@[simp] theorem capture_b (bytes : List Byte) (s : State) : (capture bytes s).b = s.b := rfl
@[simp] theorem capture_out (bytes : List Byte) (s : State) : (capture bytes s).out = s.out := rfl
@[simp] theorem capture_rx (bytes : List Byte) (s : State) : (capture bytes s).rx = s.rx.writeBytes 0 bytes := rfl
@[simp] theorem capture_rxLen (bytes : List Byte) (s : State) : (capture bytes s).rxLen = bytes.length := rfl
@[simp] theorem capture_tpl (bytes : List Byte) (s : State) : (capture bytes s).tpl = s.tpl := rfl
@[simp] theorem capture_result (bytes : List Byte) (s : State) : (capture bytes s).result = s.result := rfl
@[simp] theorem capture_rdata (bytes : List Byte) (s : State) : (capture bytes s).rdata = s.rdata := rfl
@[simp] theorem capture_tx (bytes : List Byte) (s : State) : (capture bytes s).tx = s.tx := rfl
@[simp] theorem capture_hostOps (bytes : List Byte) (s : State) : (capture bytes s).hostOps = s.hostOps := rfl
@[simp] theorem capture_port (bytes : List Byte) (s : State) : (capture bytes s).port = s.port := rfl

/-! ### emit

A transmit request writes the transmit stream only (R72). -/

@[simp] theorem emit_net (r : TxRequest) (s : State) : (emit r s).net = s.net := rfl
@[simp] theorem emit_subnet (r : TxRequest) (s : State) : (emit r s).subnet = s.subnet := rfl
@[simp] theorem emit_univ (r : TxRequest) (s : State) : (emit r s).univ = s.univ := rfl
@[simp] theorem emit_htpEn (r : TxRequest) (s : State) : (emit r s).htpEn = s.htpEn := rfl
@[simp] theorem emit_bcastEn (r : TxRequest) (s : State) : (emit r s).bcastEn = s.bcastEn := rfl
@[simp] theorem emit_bcastIp (r : TxRequest) (s : State) : (emit r s).bcastIp = s.bcastIp := rfl
@[simp] theorem emit_nodeIp (r : TxRequest) (s : State) : (emit r s).nodeIp = s.nodeIp := rfl
@[simp] theorem emit_srcA (r : TxRequest) (s : State) : (emit r s).srcA = s.srcA := rfl
@[simp] theorem emit_srcB (r : TxRequest) (s : State) : (emit r s).srcB = s.srcB := rfl
@[simp] theorem emit_slotsA (r : TxRequest) (s : State) : (emit r s).slotsA = s.slotsA := rfl
@[simp] theorem emit_slotsB (r : TxRequest) (s : State) : (emit r s).slotsB = s.slotsB := rfl
@[simp] theorem emit_outSlots (r : TxRequest) (s : State) : (emit r s).outSlots = s.outSlots := rfl
@[simp] theorem emit_a (r : TxRequest) (s : State) : (emit r s).a = s.a := rfl
@[simp] theorem emit_b (r : TxRequest) (s : State) : (emit r s).b = s.b := rfl
@[simp] theorem emit_out (r : TxRequest) (s : State) : (emit r s).out = s.out := rfl
@[simp] theorem emit_rx (r : TxRequest) (s : State) : (emit r s).rx = s.rx := rfl
@[simp] theorem emit_rxLen (r : TxRequest) (s : State) : (emit r s).rxLen = s.rxLen := rfl
@[simp] theorem emit_tpl (r : TxRequest) (s : State) : (emit r s).tpl = s.tpl := rfl
@[simp] theorem emit_result (r : TxRequest) (s : State) : (emit r s).result = s.result := rfl
@[simp] theorem emit_rdata (r : TxRequest) (s : State) : (emit r s).rdata = s.rdata := rfl
@[simp] theorem emit_tx (r : TxRequest) (s : State) : (emit r s).tx = s.tx ++ [r] := rfl
@[simp] theorem emit_hostOps (r : TxRequest) (s : State) : (emit r s).hostOps = s.hostOps := rfl
@[simp] theorem emit_port (r : TxRequest) (s : State) : (emit r s).port = s.port := rfl

/-! ### issue

Issuing an operation writes the two queues only. -/

@[simp] theorem issue_net (w : HostWord) (ds : List Datagram) (s : State) : (issue w ds s).net = s.net := rfl
@[simp] theorem issue_subnet (w : HostWord) (ds : List Datagram) (s : State) : (issue w ds s).subnet = s.subnet := rfl
@[simp] theorem issue_univ (w : HostWord) (ds : List Datagram) (s : State) : (issue w ds s).univ = s.univ := rfl
@[simp] theorem issue_htpEn (w : HostWord) (ds : List Datagram) (s : State) : (issue w ds s).htpEn = s.htpEn := rfl
@[simp] theorem issue_bcastEn (w : HostWord) (ds : List Datagram) (s : State) : (issue w ds s).bcastEn = s.bcastEn := rfl
@[simp] theorem issue_bcastIp (w : HostWord) (ds : List Datagram) (s : State) : (issue w ds s).bcastIp = s.bcastIp := rfl
@[simp] theorem issue_nodeIp (w : HostWord) (ds : List Datagram) (s : State) : (issue w ds s).nodeIp = s.nodeIp := rfl
@[simp] theorem issue_srcA (w : HostWord) (ds : List Datagram) (s : State) : (issue w ds s).srcA = s.srcA := rfl
@[simp] theorem issue_srcB (w : HostWord) (ds : List Datagram) (s : State) : (issue w ds s).srcB = s.srcB := rfl
@[simp] theorem issue_slotsA (w : HostWord) (ds : List Datagram) (s : State) : (issue w ds s).slotsA = s.slotsA := rfl
@[simp] theorem issue_slotsB (w : HostWord) (ds : List Datagram) (s : State) : (issue w ds s).slotsB = s.slotsB := rfl
@[simp] theorem issue_outSlots (w : HostWord) (ds : List Datagram) (s : State) : (issue w ds s).outSlots = s.outSlots := rfl
@[simp] theorem issue_a (w : HostWord) (ds : List Datagram) (s : State) : (issue w ds s).a = s.a := rfl
@[simp] theorem issue_b (w : HostWord) (ds : List Datagram) (s : State) : (issue w ds s).b = s.b := rfl
@[simp] theorem issue_out (w : HostWord) (ds : List Datagram) (s : State) : (issue w ds s).out = s.out := rfl
@[simp] theorem issue_rx (w : HostWord) (ds : List Datagram) (s : State) : (issue w ds s).rx = s.rx := rfl
@[simp] theorem issue_rxLen (w : HostWord) (ds : List Datagram) (s : State) : (issue w ds s).rxLen = s.rxLen := rfl
@[simp] theorem issue_tpl (w : HostWord) (ds : List Datagram) (s : State) : (issue w ds s).tpl = s.tpl := rfl
@[simp] theorem issue_result (w : HostWord) (ds : List Datagram) (s : State) : (issue w ds s).result = s.result := rfl
@[simp] theorem issue_rdata (w : HostWord) (ds : List Datagram) (s : State) : (issue w ds s).rdata = s.rdata := rfl
@[simp] theorem issue_tx (w : HostWord) (ds : List Datagram) (s : State) : (issue w ds s).tx = s.tx := rfl
@[simp] theorem issue_hostOps (w : HostWord) (ds : List Datagram) (s : State) : (issue w ds s).hostOps = w :: s.hostOps := rfl
@[simp] theorem issue_port (w : HostWord) (ds : List Datagram) (s : State) : (issue w ds s).port = ds ++ s.port := rfl

/-! ### refreshPortAddress

The port-address refresh writes the template only (R201). -/

@[simp] theorem refreshPortAddress_net (s : State) : (refreshPortAddress s).net = s.net := rfl
@[simp] theorem refreshPortAddress_subnet (s : State) : (refreshPortAddress s).subnet = s.subnet := rfl
@[simp] theorem refreshPortAddress_univ (s : State) : (refreshPortAddress s).univ = s.univ := rfl
@[simp] theorem refreshPortAddress_htpEn (s : State) : (refreshPortAddress s).htpEn = s.htpEn := rfl
@[simp] theorem refreshPortAddress_bcastEn (s : State) : (refreshPortAddress s).bcastEn = s.bcastEn := rfl
@[simp] theorem refreshPortAddress_bcastIp (s : State) : (refreshPortAddress s).bcastIp = s.bcastIp := rfl
@[simp] theorem refreshPortAddress_nodeIp (s : State) : (refreshPortAddress s).nodeIp = s.nodeIp := rfl
@[simp] theorem refreshPortAddress_srcA (s : State) : (refreshPortAddress s).srcA = s.srcA := rfl
@[simp] theorem refreshPortAddress_srcB (s : State) : (refreshPortAddress s).srcB = s.srcB := rfl
@[simp] theorem refreshPortAddress_slotsA (s : State) : (refreshPortAddress s).slotsA = s.slotsA := rfl
@[simp] theorem refreshPortAddress_slotsB (s : State) : (refreshPortAddress s).slotsB = s.slotsB := rfl
@[simp] theorem refreshPortAddress_outSlots (s : State) : (refreshPortAddress s).outSlots = s.outSlots := rfl
@[simp] theorem refreshPortAddress_a (s : State) : (refreshPortAddress s).a = s.a := rfl
@[simp] theorem refreshPortAddress_b (s : State) : (refreshPortAddress s).b = s.b := rfl
@[simp] theorem refreshPortAddress_out (s : State) : (refreshPortAddress s).out = s.out := rfl
@[simp] theorem refreshPortAddress_rx (s : State) : (refreshPortAddress s).rx = s.rx := rfl
@[simp] theorem refreshPortAddress_rxLen (s : State) : (refreshPortAddress s).rxLen = s.rxLen := rfl
@[simp] theorem refreshPortAddress_tpl (s : State) : (refreshPortAddress s).tpl = s.tpl.write Config.prPaOffset s.paLo := rfl
@[simp] theorem refreshPortAddress_result (s : State) : (refreshPortAddress s).result = s.result := rfl
@[simp] theorem refreshPortAddress_rdata (s : State) : (refreshPortAddress s).rdata = s.rdata := rfl
@[simp] theorem refreshPortAddress_tx (s : State) : (refreshPortAddress s).tx = s.tx := rfl
@[simp] theorem refreshPortAddress_hostOps (s : State) : (refreshPortAddress s).hostOps = s.hostOps := rfl
@[simp] theorem refreshPortAddress_port (s : State) : (refreshPortAddress s).port = s.port := rfl

/-! ### pollReply

A poll reply writes the template and the transmit stream only (R200). -/

@[simp] theorem pollReply_net (sender : Ip) (s : State) : (pollReply sender s).net = s.net := rfl
@[simp] theorem pollReply_subnet (sender : Ip) (s : State) : (pollReply sender s).subnet = s.subnet := rfl
@[simp] theorem pollReply_univ (sender : Ip) (s : State) : (pollReply sender s).univ = s.univ := rfl
@[simp] theorem pollReply_htpEn (sender : Ip) (s : State) : (pollReply sender s).htpEn = s.htpEn := rfl
@[simp] theorem pollReply_bcastEn (sender : Ip) (s : State) : (pollReply sender s).bcastEn = s.bcastEn := rfl
@[simp] theorem pollReply_bcastIp (sender : Ip) (s : State) : (pollReply sender s).bcastIp = s.bcastIp := rfl
@[simp] theorem pollReply_nodeIp (sender : Ip) (s : State) : (pollReply sender s).nodeIp = s.nodeIp := rfl
@[simp] theorem pollReply_srcA (sender : Ip) (s : State) : (pollReply sender s).srcA = s.srcA := rfl
@[simp] theorem pollReply_srcB (sender : Ip) (s : State) : (pollReply sender s).srcB = s.srcB := rfl
@[simp] theorem pollReply_slotsA (sender : Ip) (s : State) : (pollReply sender s).slotsA = s.slotsA := rfl
@[simp] theorem pollReply_slotsB (sender : Ip) (s : State) : (pollReply sender s).slotsB = s.slotsB := rfl
@[simp] theorem pollReply_outSlots (sender : Ip) (s : State) : (pollReply sender s).outSlots = s.outSlots := rfl
@[simp] theorem pollReply_a (sender : Ip) (s : State) : (pollReply sender s).a = s.a := rfl
@[simp] theorem pollReply_b (sender : Ip) (s : State) : (pollReply sender s).b = s.b := rfl
@[simp] theorem pollReply_out (sender : Ip) (s : State) : (pollReply sender s).out = s.out := rfl
@[simp] theorem pollReply_rx (sender : Ip) (s : State) : (pollReply sender s).rx = s.rx := rfl
@[simp] theorem pollReply_rxLen (sender : Ip) (s : State) : (pollReply sender s).rxLen = s.rxLen := rfl
@[simp] theorem pollReply_tpl (sender : Ip) (s : State) : (pollReply sender s).tpl = s.tpl.write Config.prPaOffset s.paLo := rfl
@[simp] theorem pollReply_result (sender : Ip) (s : State) : (pollReply sender s).result = s.result := rfl
@[simp] theorem pollReply_rdata (sender : Ip) (s : State) : (pollReply sender s).rdata = s.rdata := rfl
@[simp] theorem pollReply_tx (sender : Ip) (s : State) : (pollReply sender s).tx = s.tx ++ [replyRequest sender (refreshPortAddress s)] := rfl
@[simp] theorem pollReply_hostOps (sender : Ip) (s : State) : (pollReply sender s).hostOps = s.hostOps := rfl
@[simp] theorem pollReply_port (sender : Ip) (s : State) : (pollReply sender s).port = s.port := rfl

/-! ### applyFields

The ArtAddress fields write the Address Model only (R180). -/

@[simp] theorem applyFields_net (s : State) : (applyFields s).net = netField (s.rx.read 12) s.net := rfl
@[simp] theorem applyFields_subnet (s : State) : (applyFields s).subnet = nibbleField (s.rx.read 104) s.subnet := rfl
@[simp] theorem applyFields_univ (s : State) : (applyFields s).univ = nibbleField (s.rx.read 100) s.univ := rfl
@[simp] theorem applyFields_htpEn (s : State) : (applyFields s).htpEn = s.htpEn := rfl
@[simp] theorem applyFields_bcastEn (s : State) : (applyFields s).bcastEn = s.bcastEn := rfl
@[simp] theorem applyFields_bcastIp (s : State) : (applyFields s).bcastIp = s.bcastIp := rfl
@[simp] theorem applyFields_nodeIp (s : State) : (applyFields s).nodeIp = s.nodeIp := rfl
@[simp] theorem applyFields_srcA (s : State) : (applyFields s).srcA = s.srcA := rfl
@[simp] theorem applyFields_srcB (s : State) : (applyFields s).srcB = s.srcB := rfl
@[simp] theorem applyFields_slotsA (s : State) : (applyFields s).slotsA = s.slotsA := rfl
@[simp] theorem applyFields_slotsB (s : State) : (applyFields s).slotsB = s.slotsB := rfl
@[simp] theorem applyFields_outSlots (s : State) : (applyFields s).outSlots = s.outSlots := rfl
@[simp] theorem applyFields_a (s : State) : (applyFields s).a = s.a := rfl
@[simp] theorem applyFields_b (s : State) : (applyFields s).b = s.b := rfl
@[simp] theorem applyFields_out (s : State) : (applyFields s).out = s.out := rfl
@[simp] theorem applyFields_rx (s : State) : (applyFields s).rx = s.rx := rfl
@[simp] theorem applyFields_rxLen (s : State) : (applyFields s).rxLen = s.rxLen := rfl
@[simp] theorem applyFields_tpl (s : State) : (applyFields s).tpl = s.tpl := rfl
@[simp] theorem applyFields_result (s : State) : (applyFields s).result = s.result := rfl
@[simp] theorem applyFields_rdata (s : State) : (applyFields s).rdata = s.rdata := rfl
@[simp] theorem applyFields_tx (s : State) : (applyFields s).tx = s.tx := rfl
@[simp] theorem applyFields_hostOps (s : State) : (applyFields s).hostOps = s.hostOps := rfl
@[simp] theorem applyFields_port (s : State) : (applyFields s).port = s.port := rfl

/-! ### cancelMerge

Cancel-merge writes the source slots only (R152). -/

@[simp] theorem cancelMerge_net (s : State) : ((cancelMerge s).2).net = s.net := rfl
@[simp] theorem cancelMerge_subnet (s : State) : ((cancelMerge s).2).subnet = s.subnet := rfl
@[simp] theorem cancelMerge_univ (s : State) : ((cancelMerge s).2).univ = s.univ := rfl
@[simp] theorem cancelMerge_htpEn (s : State) : ((cancelMerge s).2).htpEn = s.htpEn := rfl
@[simp] theorem cancelMerge_bcastEn (s : State) : ((cancelMerge s).2).bcastEn = s.bcastEn := rfl
@[simp] theorem cancelMerge_bcastIp (s : State) : ((cancelMerge s).2).bcastIp = s.bcastIp := rfl
@[simp] theorem cancelMerge_nodeIp (s : State) : ((cancelMerge s).2).nodeIp = s.nodeIp := rfl
@[simp] theorem cancelMerge_srcA (s : State) : ((cancelMerge s).2).srcA = none := rfl
@[simp] theorem cancelMerge_srcB (s : State) : ((cancelMerge s).2).srcB = none := rfl
@[simp] theorem cancelMerge_slotsA (s : State) : ((cancelMerge s).2).slotsA = s.slotsA := rfl
@[simp] theorem cancelMerge_slotsB (s : State) : ((cancelMerge s).2).slotsB = s.slotsB := rfl
@[simp] theorem cancelMerge_outSlots (s : State) : ((cancelMerge s).2).outSlots = s.outSlots := rfl
@[simp] theorem cancelMerge_a (s : State) : ((cancelMerge s).2).a = s.a := rfl
@[simp] theorem cancelMerge_b (s : State) : ((cancelMerge s).2).b = s.b := rfl
@[simp] theorem cancelMerge_out (s : State) : ((cancelMerge s).2).out = s.out := rfl
@[simp] theorem cancelMerge_rx (s : State) : ((cancelMerge s).2).rx = s.rx := rfl
@[simp] theorem cancelMerge_rxLen (s : State) : ((cancelMerge s).2).rxLen = s.rxLen := rfl
@[simp] theorem cancelMerge_tpl (s : State) : ((cancelMerge s).2).tpl = s.tpl := rfl
@[simp] theorem cancelMerge_result (s : State) : ((cancelMerge s).2).result = s.result := rfl
@[simp] theorem cancelMerge_rdata (s : State) : ((cancelMerge s).2).rdata = s.rdata := rfl
@[simp] theorem cancelMerge_tx (s : State) : ((cancelMerge s).2).tx = s.tx := rfl
@[simp] theorem cancelMerge_hostOps (s : State) : ((cancelMerge s).2).hostOps = s.hostOps := rfl
@[simp] theorem cancelMerge_port (s : State) : ((cancelMerge s).2).port = s.port := rfl

/-! ### clearBuffer

Clear-buffer writes source A, `OUT` and `OUT_SLOTS` only (R153). -/

@[simp] theorem clearBuffer_net (s : State) : ((clearBuffer s).2).net = s.net := rfl
@[simp] theorem clearBuffer_subnet (s : State) : ((clearBuffer s).2).subnet = s.subnet := rfl
@[simp] theorem clearBuffer_univ (s : State) : ((clearBuffer s).2).univ = s.univ := rfl
@[simp] theorem clearBuffer_htpEn (s : State) : ((clearBuffer s).2).htpEn = s.htpEn := rfl
@[simp] theorem clearBuffer_bcastEn (s : State) : ((clearBuffer s).2).bcastEn = s.bcastEn := rfl
@[simp] theorem clearBuffer_bcastIp (s : State) : ((clearBuffer s).2).bcastIp = s.bcastIp := rfl
@[simp] theorem clearBuffer_nodeIp (s : State) : ((clearBuffer s).2).nodeIp = s.nodeIp := rfl
@[simp] theorem clearBuffer_srcA (s : State) : ((clearBuffer s).2).srcA = none := rfl
@[simp] theorem clearBuffer_srcB (s : State) : ((clearBuffer s).2).srcB = s.srcB := rfl
@[simp] theorem clearBuffer_slotsA (s : State) : ((clearBuffer s).2).slotsA = s.slotsA := rfl
@[simp] theorem clearBuffer_slotsB (s : State) : ((clearBuffer s).2).slotsB = s.slotsB := rfl
@[simp] theorem clearBuffer_outSlots (s : State) : ((clearBuffer s).2).outSlots = Config.universeSize := rfl
@[simp] theorem clearBuffer_a (s : State) : ((clearBuffer s).2).a = s.a := rfl
@[simp] theorem clearBuffer_b (s : State) : ((clearBuffer s).2).b = s.b := rfl
@[simp] theorem clearBuffer_out (s : State) : ((clearBuffer s).2).out = s.out.zeroRange 0 Config.universeSize := rfl
@[simp] theorem clearBuffer_rx (s : State) : ((clearBuffer s).2).rx = s.rx := rfl
@[simp] theorem clearBuffer_rxLen (s : State) : ((clearBuffer s).2).rxLen = s.rxLen := rfl
@[simp] theorem clearBuffer_tpl (s : State) : ((clearBuffer s).2).tpl = s.tpl := rfl
@[simp] theorem clearBuffer_result (s : State) : ((clearBuffer s).2).result = s.result := rfl
@[simp] theorem clearBuffer_rdata (s : State) : ((clearBuffer s).2).rdata = s.rdata := rfl
@[simp] theorem clearBuffer_tx (s : State) : ((clearBuffer s).2).tx = s.tx := rfl
@[simp] theorem clearBuffer_hostOps (s : State) : ((clearBuffer s).2).hostOps = s.hostOps := rfl
@[simp] theorem clearBuffer_port (s : State) : ((clearBuffer s).2).port = s.port := rfl

/-! ### merge

The merge writes `OUT` and `OUT_SLOTS` only (R149). -/

@[simp] theorem merge_net (s : State) : (merge s).net = s.net := rfl
@[simp] theorem merge_subnet (s : State) : (merge s).subnet = s.subnet := rfl
@[simp] theorem merge_univ (s : State) : (merge s).univ = s.univ := rfl
@[simp] theorem merge_htpEn (s : State) : (merge s).htpEn = s.htpEn := rfl
@[simp] theorem merge_bcastEn (s : State) : (merge s).bcastEn = s.bcastEn := rfl
@[simp] theorem merge_bcastIp (s : State) : (merge s).bcastIp = s.bcastIp := rfl
@[simp] theorem merge_nodeIp (s : State) : (merge s).nodeIp = s.nodeIp := rfl
@[simp] theorem merge_srcA (s : State) : (merge s).srcA = s.srcA := rfl
@[simp] theorem merge_srcB (s : State) : (merge s).srcB = s.srcB := rfl
@[simp] theorem merge_slotsA (s : State) : (merge s).slotsA = s.slotsA := rfl
@[simp] theorem merge_slotsB (s : State) : (merge s).slotsB = s.slotsB := rfl
@[simp] theorem merge_outSlots (s : State) : (merge s).outSlots = max s.slotsA s.slotsB := rfl
@[simp] theorem merge_a (s : State) : (merge s).a = s.a := rfl
@[simp] theorem merge_b (s : State) : (merge s).b = s.b := rfl
@[simp] theorem merge_out (s : State) : (merge s).out = s.out.writeBytes 0 (mergedLevels s.a s.b (max s.slotsA s.slotsB)) := rfl
@[simp] theorem merge_rx (s : State) : (merge s).rx = s.rx := rfl
@[simp] theorem merge_rxLen (s : State) : (merge s).rxLen = s.rxLen := rfl
@[simp] theorem merge_tpl (s : State) : (merge s).tpl = s.tpl := rfl
@[simp] theorem merge_result (s : State) : (merge s).result = s.result := rfl
@[simp] theorem merge_rdata (s : State) : (merge s).rdata = s.rdata := rfl
@[simp] theorem merge_tx (s : State) : (merge s).tx = s.tx := rfl
@[simp] theorem merge_hostOps (s : State) : (merge s).hostOps = s.hostOps := rfl
@[simp] theorem merge_port (s : State) : (merge s).port = s.port := rfl

/-! ### frameA

A source-A frame writes `A`, `SLOTS_A`, `OUT` and `OUT_SLOTS` only (R145). -/

@[simp] theorem frameA_net (n : Nat) (s : State) : (frameA n s).net = s.net := rfl
@[simp] theorem frameA_subnet (n : Nat) (s : State) : (frameA n s).subnet = s.subnet := rfl
@[simp] theorem frameA_univ (n : Nat) (s : State) : (frameA n s).univ = s.univ := rfl
@[simp] theorem frameA_htpEn (n : Nat) (s : State) : (frameA n s).htpEn = s.htpEn := rfl
@[simp] theorem frameA_bcastEn (n : Nat) (s : State) : (frameA n s).bcastEn = s.bcastEn := rfl
@[simp] theorem frameA_bcastIp (n : Nat) (s : State) : (frameA n s).bcastIp = s.bcastIp := rfl
@[simp] theorem frameA_nodeIp (n : Nat) (s : State) : (frameA n s).nodeIp = s.nodeIp := rfl
@[simp] theorem frameA_srcA (n : Nat) (s : State) : (frameA n s).srcA = s.srcA := rfl
@[simp] theorem frameA_srcB (n : Nat) (s : State) : (frameA n s).srcB = s.srcB := rfl
@[simp] theorem frameA_slotsA (n : Nat) (s : State) : (frameA n s).slotsA = n := rfl
@[simp] theorem frameA_slotsB (n : Nat) (s : State) : (frameA n s).slotsB = s.slotsB := rfl
@[simp] theorem frameA_outSlots (n : Nat) (s : State) : (frameA n s).outSlots = max n s.slotsB := rfl
@[simp] theorem frameA_a (n : Nat) (s : State) : (frameA n s).a = s.a.writeBytes 0 (rxLevels s.rx n) := rfl
@[simp] theorem frameA_b (n : Nat) (s : State) : (frameA n s).b = s.b := rfl
@[simp] theorem frameA_out (n : Nat) (s : State) : (frameA n s).out = s.out.writeBytes 0 (mergedLevels (s.a.writeBytes 0 (rxLevels s.rx n)) s.b (max n s.slotsB)) := rfl
@[simp] theorem frameA_rx (n : Nat) (s : State) : (frameA n s).rx = s.rx := rfl
@[simp] theorem frameA_rxLen (n : Nat) (s : State) : (frameA n s).rxLen = s.rxLen := rfl
@[simp] theorem frameA_tpl (n : Nat) (s : State) : (frameA n s).tpl = s.tpl := rfl
@[simp] theorem frameA_result (n : Nat) (s : State) : (frameA n s).result = s.result := rfl
@[simp] theorem frameA_rdata (n : Nat) (s : State) : (frameA n s).rdata = s.rdata := rfl
@[simp] theorem frameA_tx (n : Nat) (s : State) : (frameA n s).tx = s.tx := rfl
@[simp] theorem frameA_hostOps (n : Nat) (s : State) : (frameA n s).hostOps = s.hostOps := rfl
@[simp] theorem frameA_port (n : Nat) (s : State) : (frameA n s).port = s.port := rfl

/-! ### frameB

A source-B frame writes `B`, `SLOTS_B`, `OUT` and `OUT_SLOTS` only (R147). -/

@[simp] theorem frameB_net (n : Nat) (s : State) : (frameB n s).net = s.net := rfl
@[simp] theorem frameB_subnet (n : Nat) (s : State) : (frameB n s).subnet = s.subnet := rfl
@[simp] theorem frameB_univ (n : Nat) (s : State) : (frameB n s).univ = s.univ := rfl
@[simp] theorem frameB_htpEn (n : Nat) (s : State) : (frameB n s).htpEn = s.htpEn := rfl
@[simp] theorem frameB_bcastEn (n : Nat) (s : State) : (frameB n s).bcastEn = s.bcastEn := rfl
@[simp] theorem frameB_bcastIp (n : Nat) (s : State) : (frameB n s).bcastIp = s.bcastIp := rfl
@[simp] theorem frameB_nodeIp (n : Nat) (s : State) : (frameB n s).nodeIp = s.nodeIp := rfl
@[simp] theorem frameB_srcA (n : Nat) (s : State) : (frameB n s).srcA = s.srcA := rfl
@[simp] theorem frameB_srcB (n : Nat) (s : State) : (frameB n s).srcB = s.srcB := rfl
@[simp] theorem frameB_slotsA (n : Nat) (s : State) : (frameB n s).slotsA = s.slotsA := rfl
@[simp] theorem frameB_slotsB (n : Nat) (s : State) : (frameB n s).slotsB = n := rfl
@[simp] theorem frameB_outSlots (n : Nat) (s : State) : (frameB n s).outSlots = max s.slotsA n := rfl
@[simp] theorem frameB_a (n : Nat) (s : State) : (frameB n s).a = s.a := rfl
@[simp] theorem frameB_b (n : Nat) (s : State) : (frameB n s).b = s.b.writeBytes 0 (rxLevels s.rx n) := rfl
@[simp] theorem frameB_out (n : Nat) (s : State) : (frameB n s).out = s.out.writeBytes 0 (mergedLevels s.a (s.b.writeBytes 0 (rxLevels s.rx n)) (max s.slotsA n)) := rfl
@[simp] theorem frameB_rx (n : Nat) (s : State) : (frameB n s).rx = s.rx := rfl
@[simp] theorem frameB_rxLen (n : Nat) (s : State) : (frameB n s).rxLen = s.rxLen := rfl
@[simp] theorem frameB_tpl (n : Nat) (s : State) : (frameB n s).tpl = s.tpl := rfl
@[simp] theorem frameB_result (n : Nat) (s : State) : (frameB n s).result = s.result := rfl
@[simp] theorem frameB_rdata (n : Nat) (s : State) : (frameB n s).rdata = s.rdata := rfl
@[simp] theorem frameB_tx (n : Nat) (s : State) : (frameB n s).tx = s.tx := rfl
@[simp] theorem frameB_hostOps (n : Nat) (s : State) : (frameB n s).hostOps = s.hostOps := rfl
@[simp] theorem frameB_port (n : Nat) (s : State) : (frameB n s).port = s.port := rfl

/-! ### frameSingle

A single-source frame writes `OUT` and both counts only (R150). -/

@[simp] theorem frameSingle_net (n : Nat) (s : State) : (frameSingle n s).net = s.net := rfl
@[simp] theorem frameSingle_subnet (n : Nat) (s : State) : (frameSingle n s).subnet = s.subnet := rfl
@[simp] theorem frameSingle_univ (n : Nat) (s : State) : (frameSingle n s).univ = s.univ := rfl
@[simp] theorem frameSingle_htpEn (n : Nat) (s : State) : (frameSingle n s).htpEn = s.htpEn := rfl
@[simp] theorem frameSingle_bcastEn (n : Nat) (s : State) : (frameSingle n s).bcastEn = s.bcastEn := rfl
@[simp] theorem frameSingle_bcastIp (n : Nat) (s : State) : (frameSingle n s).bcastIp = s.bcastIp := rfl
@[simp] theorem frameSingle_nodeIp (n : Nat) (s : State) : (frameSingle n s).nodeIp = s.nodeIp := rfl
@[simp] theorem frameSingle_srcA (n : Nat) (s : State) : (frameSingle n s).srcA = s.srcA := rfl
@[simp] theorem frameSingle_srcB (n : Nat) (s : State) : (frameSingle n s).srcB = s.srcB := rfl
@[simp] theorem frameSingle_slotsA (n : Nat) (s : State) : (frameSingle n s).slotsA = n := rfl
@[simp] theorem frameSingle_slotsB (n : Nat) (s : State) : (frameSingle n s).slotsB = s.slotsB := rfl
@[simp] theorem frameSingle_outSlots (n : Nat) (s : State) : (frameSingle n s).outSlots = n := rfl
@[simp] theorem frameSingle_a (n : Nat) (s : State) : (frameSingle n s).a = s.a := rfl
@[simp] theorem frameSingle_b (n : Nat) (s : State) : (frameSingle n s).b = s.b := rfl
@[simp] theorem frameSingle_out (n : Nat) (s : State) : (frameSingle n s).out = (s.out.writeBytes 0 (rxLevels s.rx n)).zeroRange n Config.universeSize := rfl
@[simp] theorem frameSingle_rx (n : Nat) (s : State) : (frameSingle n s).rx = s.rx := rfl
@[simp] theorem frameSingle_rxLen (n : Nat) (s : State) : (frameSingle n s).rxLen = s.rxLen := rfl
@[simp] theorem frameSingle_tpl (n : Nat) (s : State) : (frameSingle n s).tpl = s.tpl := rfl
@[simp] theorem frameSingle_result (n : Nat) (s : State) : (frameSingle n s).result = s.result := rfl
@[simp] theorem frameSingle_rdata (n : Nat) (s : State) : (frameSingle n s).rdata = s.rdata := rfl
@[simp] theorem frameSingle_tx (n : Nat) (s : State) : (frameSingle n s).tx = s.tx := rfl
@[simp] theorem frameSingle_hostOps (n : Nat) (s : State) : (frameSingle n s).hostOps = s.hostOps := rfl
@[simp] theorem frameSingle_port (n : Nat) (s : State) : (frameSingle n s).port = s.port := rfl

/-! ### writePortAddr

A `PORT_ADDR` write writes the Address Model only (R35). -/

@[simp] theorem writePortAddr_net (v : Word32) (s : State) : (writePortAddr v s).net = v.extractLsb' 8 7 := rfl
@[simp] theorem writePortAddr_subnet (v : Word32) (s : State) : (writePortAddr v s).subnet = v.extractLsb' 4 4 := rfl
@[simp] theorem writePortAddr_univ (v : Word32) (s : State) : (writePortAddr v s).univ = v.extractLsb' 0 4 := rfl
@[simp] theorem writePortAddr_htpEn (v : Word32) (s : State) : (writePortAddr v s).htpEn = s.htpEn := rfl
@[simp] theorem writePortAddr_bcastEn (v : Word32) (s : State) : (writePortAddr v s).bcastEn = s.bcastEn := rfl
@[simp] theorem writePortAddr_bcastIp (v : Word32) (s : State) : (writePortAddr v s).bcastIp = s.bcastIp := rfl
@[simp] theorem writePortAddr_nodeIp (v : Word32) (s : State) : (writePortAddr v s).nodeIp = s.nodeIp := rfl
@[simp] theorem writePortAddr_srcA (v : Word32) (s : State) : (writePortAddr v s).srcA = s.srcA := rfl
@[simp] theorem writePortAddr_srcB (v : Word32) (s : State) : (writePortAddr v s).srcB = s.srcB := rfl
@[simp] theorem writePortAddr_slotsA (v : Word32) (s : State) : (writePortAddr v s).slotsA = s.slotsA := rfl
@[simp] theorem writePortAddr_slotsB (v : Word32) (s : State) : (writePortAddr v s).slotsB = s.slotsB := rfl
@[simp] theorem writePortAddr_outSlots (v : Word32) (s : State) : (writePortAddr v s).outSlots = s.outSlots := rfl
@[simp] theorem writePortAddr_a (v : Word32) (s : State) : (writePortAddr v s).a = s.a := rfl
@[simp] theorem writePortAddr_b (v : Word32) (s : State) : (writePortAddr v s).b = s.b := rfl
@[simp] theorem writePortAddr_out (v : Word32) (s : State) : (writePortAddr v s).out = s.out := rfl
@[simp] theorem writePortAddr_rx (v : Word32) (s : State) : (writePortAddr v s).rx = s.rx := rfl
@[simp] theorem writePortAddr_rxLen (v : Word32) (s : State) : (writePortAddr v s).rxLen = s.rxLen := rfl
@[simp] theorem writePortAddr_tpl (v : Word32) (s : State) : (writePortAddr v s).tpl = s.tpl := rfl
@[simp] theorem writePortAddr_result (v : Word32) (s : State) : (writePortAddr v s).result = s.result := rfl
@[simp] theorem writePortAddr_rdata (v : Word32) (s : State) : (writePortAddr v s).rdata = s.rdata := rfl
@[simp] theorem writePortAddr_tx (v : Word32) (s : State) : (writePortAddr v s).tx = s.tx := rfl
@[simp] theorem writePortAddr_hostOps (v : Word32) (s : State) : (writePortAddr v s).hostOps = s.hostOps := rfl
@[simp] theorem writePortAddr_port (v : Word32) (s : State) : (writePortAddr v s).port = s.port := rfl

/-! ### writeNodeIp

A `NODE_IP` write writes `NODE_IP` and the template only (R36). -/

@[simp] theorem writeNodeIp_net (v : Word32) (s : State) : (writeNodeIp v s).net = s.net := rfl
@[simp] theorem writeNodeIp_subnet (v : Word32) (s : State) : (writeNodeIp v s).subnet = s.subnet := rfl
@[simp] theorem writeNodeIp_univ (v : Word32) (s : State) : (writeNodeIp v s).univ = s.univ := rfl
@[simp] theorem writeNodeIp_htpEn (v : Word32) (s : State) : (writeNodeIp v s).htpEn = s.htpEn := rfl
@[simp] theorem writeNodeIp_bcastEn (v : Word32) (s : State) : (writeNodeIp v s).bcastEn = s.bcastEn := rfl
@[simp] theorem writeNodeIp_bcastIp (v : Word32) (s : State) : (writeNodeIp v s).bcastIp = s.bcastIp := rfl
@[simp] theorem writeNodeIp_nodeIp (v : Word32) (s : State) : (writeNodeIp v s).nodeIp = v := rfl
@[simp] theorem writeNodeIp_srcA (v : Word32) (s : State) : (writeNodeIp v s).srcA = s.srcA := rfl
@[simp] theorem writeNodeIp_srcB (v : Word32) (s : State) : (writeNodeIp v s).srcB = s.srcB := rfl
@[simp] theorem writeNodeIp_slotsA (v : Word32) (s : State) : (writeNodeIp v s).slotsA = s.slotsA := rfl
@[simp] theorem writeNodeIp_slotsB (v : Word32) (s : State) : (writeNodeIp v s).slotsB = s.slotsB := rfl
@[simp] theorem writeNodeIp_outSlots (v : Word32) (s : State) : (writeNodeIp v s).outSlots = s.outSlots := rfl
@[simp] theorem writeNodeIp_a (v : Word32) (s : State) : (writeNodeIp v s).a = s.a := rfl
@[simp] theorem writeNodeIp_b (v : Word32) (s : State) : (writeNodeIp v s).b = s.b := rfl
@[simp] theorem writeNodeIp_out (v : Word32) (s : State) : (writeNodeIp v s).out = s.out := rfl
@[simp] theorem writeNodeIp_rx (v : Word32) (s : State) : (writeNodeIp v s).rx = s.rx := rfl
@[simp] theorem writeNodeIp_rxLen (v : Word32) (s : State) : (writeNodeIp v s).rxLen = s.rxLen := rfl
@[simp] theorem writeNodeIp_tpl (v : Word32) (s : State) : (writeNodeIp v s).tpl = s.tpl.writeBytes 10 (octets v) := rfl
@[simp] theorem writeNodeIp_result (v : Word32) (s : State) : (writeNodeIp v s).result = s.result := rfl
@[simp] theorem writeNodeIp_rdata (v : Word32) (s : State) : (writeNodeIp v s).rdata = s.rdata := rfl
@[simp] theorem writeNodeIp_tx (v : Word32) (s : State) : (writeNodeIp v s).tx = s.tx := rfl
@[simp] theorem writeNodeIp_hostOps (v : Word32) (s : State) : (writeNodeIp v s).hostOps = s.hostOps := rfl
@[simp] theorem writeNodeIp_port (v : Word32) (s : State) : (writeNodeIp v s).port = s.port := rfl

/-! ### writeBcastIp

A `BCAST_IP` write writes `BCAST_IP` only (R37). -/

@[simp] theorem writeBcastIp_net (v : Word32) (s : State) : (writeBcastIp v s).net = s.net := rfl
@[simp] theorem writeBcastIp_subnet (v : Word32) (s : State) : (writeBcastIp v s).subnet = s.subnet := rfl
@[simp] theorem writeBcastIp_univ (v : Word32) (s : State) : (writeBcastIp v s).univ = s.univ := rfl
@[simp] theorem writeBcastIp_htpEn (v : Word32) (s : State) : (writeBcastIp v s).htpEn = s.htpEn := rfl
@[simp] theorem writeBcastIp_bcastEn (v : Word32) (s : State) : (writeBcastIp v s).bcastEn = s.bcastEn := rfl
@[simp] theorem writeBcastIp_bcastIp (v : Word32) (s : State) : (writeBcastIp v s).bcastIp = v := rfl
@[simp] theorem writeBcastIp_nodeIp (v : Word32) (s : State) : (writeBcastIp v s).nodeIp = s.nodeIp := rfl
@[simp] theorem writeBcastIp_srcA (v : Word32) (s : State) : (writeBcastIp v s).srcA = s.srcA := rfl
@[simp] theorem writeBcastIp_srcB (v : Word32) (s : State) : (writeBcastIp v s).srcB = s.srcB := rfl
@[simp] theorem writeBcastIp_slotsA (v : Word32) (s : State) : (writeBcastIp v s).slotsA = s.slotsA := rfl
@[simp] theorem writeBcastIp_slotsB (v : Word32) (s : State) : (writeBcastIp v s).slotsB = s.slotsB := rfl
@[simp] theorem writeBcastIp_outSlots (v : Word32) (s : State) : (writeBcastIp v s).outSlots = s.outSlots := rfl
@[simp] theorem writeBcastIp_a (v : Word32) (s : State) : (writeBcastIp v s).a = s.a := rfl
@[simp] theorem writeBcastIp_b (v : Word32) (s : State) : (writeBcastIp v s).b = s.b := rfl
@[simp] theorem writeBcastIp_out (v : Word32) (s : State) : (writeBcastIp v s).out = s.out := rfl
@[simp] theorem writeBcastIp_rx (v : Word32) (s : State) : (writeBcastIp v s).rx = s.rx := rfl
@[simp] theorem writeBcastIp_rxLen (v : Word32) (s : State) : (writeBcastIp v s).rxLen = s.rxLen := rfl
@[simp] theorem writeBcastIp_tpl (v : Word32) (s : State) : (writeBcastIp v s).tpl = s.tpl := rfl
@[simp] theorem writeBcastIp_result (v : Word32) (s : State) : (writeBcastIp v s).result = s.result := rfl
@[simp] theorem writeBcastIp_rdata (v : Word32) (s : State) : (writeBcastIp v s).rdata = s.rdata := rfl
@[simp] theorem writeBcastIp_tx (v : Word32) (s : State) : (writeBcastIp v s).tx = s.tx := rfl
@[simp] theorem writeBcastIp_hostOps (v : Word32) (s : State) : (writeBcastIp v s).hostOps = s.hostOps := rfl
@[simp] theorem writeBcastIp_port (v : Word32) (s : State) : (writeBcastIp v s).port = s.port := rfl

/-! ### bindA

Binding A writes `SRC_A` and `B` only (R144). -/

@[simp] theorem bindA_net (sender : Ip) (s : State) : (bindA sender s).net = s.net := by
  rw [bindA]; split <;> rfl
@[simp] theorem bindA_subnet (sender : Ip) (s : State) : (bindA sender s).subnet = s.subnet := by
  rw [bindA]; split <;> rfl
@[simp] theorem bindA_univ (sender : Ip) (s : State) : (bindA sender s).univ = s.univ := by
  rw [bindA]; split <;> rfl
@[simp] theorem bindA_htpEn (sender : Ip) (s : State) : (bindA sender s).htpEn = s.htpEn := by
  rw [bindA]; split <;> rfl
@[simp] theorem bindA_bcastEn (sender : Ip) (s : State) : (bindA sender s).bcastEn = s.bcastEn := by
  rw [bindA]; split <;> rfl
@[simp] theorem bindA_bcastIp (sender : Ip) (s : State) : (bindA sender s).bcastIp = s.bcastIp := by
  rw [bindA]; split <;> rfl
@[simp] theorem bindA_nodeIp (sender : Ip) (s : State) : (bindA sender s).nodeIp = s.nodeIp := by
  rw [bindA]; split <;> rfl
@[simp] theorem bindA_srcB (sender : Ip) (s : State) : (bindA sender s).srcB = s.srcB := by
  rw [bindA]; split <;> rfl
@[simp] theorem bindA_slotsA (sender : Ip) (s : State) : (bindA sender s).slotsA = s.slotsA := by
  rw [bindA]; split <;> rfl
@[simp] theorem bindA_slotsB (sender : Ip) (s : State) : (bindA sender s).slotsB = s.slotsB := by
  rw [bindA]; split <;> rfl
@[simp] theorem bindA_outSlots (sender : Ip) (s : State) : (bindA sender s).outSlots = s.outSlots := by
  rw [bindA]; split <;> rfl
@[simp] theorem bindA_a (sender : Ip) (s : State) : (bindA sender s).a = s.a := by
  rw [bindA]; split <;> rfl
@[simp] theorem bindA_out (sender : Ip) (s : State) : (bindA sender s).out = s.out := by
  rw [bindA]; split <;> rfl
@[simp] theorem bindA_rx (sender : Ip) (s : State) : (bindA sender s).rx = s.rx := by
  rw [bindA]; split <;> rfl
@[simp] theorem bindA_rxLen (sender : Ip) (s : State) : (bindA sender s).rxLen = s.rxLen := by
  rw [bindA]; split <;> rfl
@[simp] theorem bindA_tpl (sender : Ip) (s : State) : (bindA sender s).tpl = s.tpl := by
  rw [bindA]; split <;> rfl
@[simp] theorem bindA_result (sender : Ip) (s : State) : (bindA sender s).result = s.result := by
  rw [bindA]; split <;> rfl
@[simp] theorem bindA_rdata (sender : Ip) (s : State) : (bindA sender s).rdata = s.rdata := by
  rw [bindA]; split <;> rfl
@[simp] theorem bindA_tx (sender : Ip) (s : State) : (bindA sender s).tx = s.tx := by
  rw [bindA]; split <;> rfl
@[simp] theorem bindA_hostOps (sender : Ip) (s : State) : (bindA sender s).hostOps = s.hostOps := by
  rw [bindA]; split <;> rfl
@[simp] theorem bindA_port (sender : Ip) (s : State) : (bindA sender s).port = s.port := by
  rw [bindA]; split <;> rfl

/-! ### bindB

Binding B writes `SRC_B` only (R146). -/

@[simp] theorem bindB_net (sender : Ip) (s : State) : (bindB sender s).net = s.net := by
  rw [bindB]; split <;> rfl
@[simp] theorem bindB_subnet (sender : Ip) (s : State) : (bindB sender s).subnet = s.subnet := by
  rw [bindB]; split <;> rfl
@[simp] theorem bindB_univ (sender : Ip) (s : State) : (bindB sender s).univ = s.univ := by
  rw [bindB]; split <;> rfl
@[simp] theorem bindB_htpEn (sender : Ip) (s : State) : (bindB sender s).htpEn = s.htpEn := by
  rw [bindB]; split <;> rfl
@[simp] theorem bindB_bcastEn (sender : Ip) (s : State) : (bindB sender s).bcastEn = s.bcastEn := by
  rw [bindB]; split <;> rfl
@[simp] theorem bindB_bcastIp (sender : Ip) (s : State) : (bindB sender s).bcastIp = s.bcastIp := by
  rw [bindB]; split <;> rfl
@[simp] theorem bindB_nodeIp (sender : Ip) (s : State) : (bindB sender s).nodeIp = s.nodeIp := by
  rw [bindB]; split <;> rfl
@[simp] theorem bindB_srcA (sender : Ip) (s : State) : (bindB sender s).srcA = s.srcA := by
  rw [bindB]; split <;> rfl
@[simp] theorem bindB_slotsA (sender : Ip) (s : State) : (bindB sender s).slotsA = s.slotsA := by
  rw [bindB]; split <;> rfl
@[simp] theorem bindB_slotsB (sender : Ip) (s : State) : (bindB sender s).slotsB = s.slotsB := by
  rw [bindB]; split <;> rfl
@[simp] theorem bindB_outSlots (sender : Ip) (s : State) : (bindB sender s).outSlots = s.outSlots := by
  rw [bindB]; split <;> rfl
@[simp] theorem bindB_a (sender : Ip) (s : State) : (bindB sender s).a = s.a := by
  rw [bindB]; split <;> rfl
@[simp] theorem bindB_b (sender : Ip) (s : State) : (bindB sender s).b = s.b := by
  rw [bindB]; split <;> rfl
@[simp] theorem bindB_out (sender : Ip) (s : State) : (bindB sender s).out = s.out := by
  rw [bindB]; split <;> rfl
@[simp] theorem bindB_rx (sender : Ip) (s : State) : (bindB sender s).rx = s.rx := by
  rw [bindB]; split <;> rfl
@[simp] theorem bindB_rxLen (sender : Ip) (s : State) : (bindB sender s).rxLen = s.rxLen := by
  rw [bindB]; split <;> rfl
@[simp] theorem bindB_tpl (sender : Ip) (s : State) : (bindB sender s).tpl = s.tpl := by
  rw [bindB]; split <;> rfl
@[simp] theorem bindB_result (sender : Ip) (s : State) : (bindB sender s).result = s.result := by
  rw [bindB]; split <;> rfl
@[simp] theorem bindB_rdata (sender : Ip) (s : State) : (bindB sender s).rdata = s.rdata := by
  rw [bindB]; split <;> rfl
@[simp] theorem bindB_tx (sender : Ip) (s : State) : (bindB sender s).tx = s.tx := by
  rw [bindB]; split <;> rfl
@[simp] theorem bindB_hostOps (sender : Ip) (s : State) : (bindB sender s).hostOps = s.hostOps := by
  rw [bindB]; split <;> rfl
@[simp] theorem bindB_port (sender : Ip) (s : State) : (bindB sender s).port = s.port := by
  rw [bindB]; split <;> rfl

/-! ### bindSingle

Binding the single source writes `SRC_A` only (R150). -/

@[simp] theorem bindSingle_net (sender : Ip) (s : State) : (bindSingle sender s).net = s.net := by
  rw [bindSingle]; split <;> rfl
@[simp] theorem bindSingle_subnet (sender : Ip) (s : State) : (bindSingle sender s).subnet = s.subnet := by
  rw [bindSingle]; split <;> rfl
@[simp] theorem bindSingle_univ (sender : Ip) (s : State) : (bindSingle sender s).univ = s.univ := by
  rw [bindSingle]; split <;> rfl
@[simp] theorem bindSingle_htpEn (sender : Ip) (s : State) : (bindSingle sender s).htpEn = s.htpEn := by
  rw [bindSingle]; split <;> rfl
@[simp] theorem bindSingle_bcastEn (sender : Ip) (s : State) : (bindSingle sender s).bcastEn = s.bcastEn := by
  rw [bindSingle]; split <;> rfl
@[simp] theorem bindSingle_bcastIp (sender : Ip) (s : State) : (bindSingle sender s).bcastIp = s.bcastIp := by
  rw [bindSingle]; split <;> rfl
@[simp] theorem bindSingle_nodeIp (sender : Ip) (s : State) : (bindSingle sender s).nodeIp = s.nodeIp := by
  rw [bindSingle]; split <;> rfl
@[simp] theorem bindSingle_srcB (sender : Ip) (s : State) : (bindSingle sender s).srcB = s.srcB := by
  rw [bindSingle]; split <;> rfl
@[simp] theorem bindSingle_slotsA (sender : Ip) (s : State) : (bindSingle sender s).slotsA = s.slotsA := by
  rw [bindSingle]; split <;> rfl
@[simp] theorem bindSingle_slotsB (sender : Ip) (s : State) : (bindSingle sender s).slotsB = s.slotsB := by
  rw [bindSingle]; split <;> rfl
@[simp] theorem bindSingle_outSlots (sender : Ip) (s : State) : (bindSingle sender s).outSlots = s.outSlots := by
  rw [bindSingle]; split <;> rfl
@[simp] theorem bindSingle_a (sender : Ip) (s : State) : (bindSingle sender s).a = s.a := by
  rw [bindSingle]; split <;> rfl
@[simp] theorem bindSingle_b (sender : Ip) (s : State) : (bindSingle sender s).b = s.b := by
  rw [bindSingle]; split <;> rfl
@[simp] theorem bindSingle_out (sender : Ip) (s : State) : (bindSingle sender s).out = s.out := by
  rw [bindSingle]; split <;> rfl
@[simp] theorem bindSingle_rx (sender : Ip) (s : State) : (bindSingle sender s).rx = s.rx := by
  rw [bindSingle]; split <;> rfl
@[simp] theorem bindSingle_rxLen (sender : Ip) (s : State) : (bindSingle sender s).rxLen = s.rxLen := by
  rw [bindSingle]; split <;> rfl
@[simp] theorem bindSingle_tpl (sender : Ip) (s : State) : (bindSingle sender s).tpl = s.tpl := by
  rw [bindSingle]; split <;> rfl
@[simp] theorem bindSingle_result (sender : Ip) (s : State) : (bindSingle sender s).result = s.result := by
  rw [bindSingle]; split <;> rfl
@[simp] theorem bindSingle_rdata (sender : Ip) (s : State) : (bindSingle sender s).rdata = s.rdata := by
  rw [bindSingle]; split <;> rfl
@[simp] theorem bindSingle_tx (sender : Ip) (s : State) : (bindSingle sender s).tx = s.tx := by
  rw [bindSingle]; split <;> rfl
@[simp] theorem bindSingle_hostOps (sender : Ip) (s : State) : (bindSingle sender s).hostOps = s.hostOps := by
  rw [bindSingle]; split <;> rfl
@[simp] theorem bindSingle_port (sender : Ip) (s : State) : (bindSingle sender s).port = s.port := by
  rw [bindSingle]; split <;> rfl

/-! ### enableHtp

Enable writes the mode and the merge state only (R154). -/

@[simp] theorem enableHtp_net (s : State) : (enableHtp s).net = s.net := by
  rw [enableHtp]; split <;> rfl
@[simp] theorem enableHtp_subnet (s : State) : (enableHtp s).subnet = s.subnet := by
  rw [enableHtp]; split <;> rfl
@[simp] theorem enableHtp_univ (s : State) : (enableHtp s).univ = s.univ := by
  rw [enableHtp]; split <;> rfl
@[simp] theorem enableHtp_bcastEn (s : State) : (enableHtp s).bcastEn = s.bcastEn := by
  rw [enableHtp]; split <;> rfl
@[simp] theorem enableHtp_bcastIp (s : State) : (enableHtp s).bcastIp = s.bcastIp := by
  rw [enableHtp]; split <;> rfl
@[simp] theorem enableHtp_nodeIp (s : State) : (enableHtp s).nodeIp = s.nodeIp := by
  rw [enableHtp]; split <;> rfl
@[simp] theorem enableHtp_rx (s : State) : (enableHtp s).rx = s.rx := by
  rw [enableHtp]; split <;> rfl
@[simp] theorem enableHtp_rxLen (s : State) : (enableHtp s).rxLen = s.rxLen := by
  rw [enableHtp]; split <;> rfl
@[simp] theorem enableHtp_tpl (s : State) : (enableHtp s).tpl = s.tpl := by
  rw [enableHtp]; split <;> rfl
@[simp] theorem enableHtp_result (s : State) : (enableHtp s).result = s.result := by
  rw [enableHtp]; split <;> rfl
@[simp] theorem enableHtp_rdata (s : State) : (enableHtp s).rdata = s.rdata := by
  rw [enableHtp]; split <;> rfl
@[simp] theorem enableHtp_tx (s : State) : (enableHtp s).tx = s.tx := by
  rw [enableHtp]; split <;> rfl
@[simp] theorem enableHtp_hostOps (s : State) : (enableHtp s).hostOps = s.hostOps := by
  rw [enableHtp]; split <;> rfl
@[simp] theorem enableHtp_port (s : State) : (enableHtp s).port = s.port := by
  rw [enableHtp]; split <;> rfl

/-! ### writeNumSlots

A `NUM_SLOTS` write writes `OUT_SLOTS` only (R38). -/

@[simp] theorem writeNumSlots_net (v : Word32) (s : State) : (writeNumSlots v s).net = s.net := by
  rw [writeNumSlots]; split <;> rfl
@[simp] theorem writeNumSlots_subnet (v : Word32) (s : State) : (writeNumSlots v s).subnet = s.subnet := by
  rw [writeNumSlots]; split <;> rfl
@[simp] theorem writeNumSlots_univ (v : Word32) (s : State) : (writeNumSlots v s).univ = s.univ := by
  rw [writeNumSlots]; split <;> rfl
@[simp] theorem writeNumSlots_htpEn (v : Word32) (s : State) : (writeNumSlots v s).htpEn = s.htpEn := by
  rw [writeNumSlots]; split <;> rfl
@[simp] theorem writeNumSlots_bcastEn (v : Word32) (s : State) : (writeNumSlots v s).bcastEn = s.bcastEn := by
  rw [writeNumSlots]; split <;> rfl
@[simp] theorem writeNumSlots_bcastIp (v : Word32) (s : State) : (writeNumSlots v s).bcastIp = s.bcastIp := by
  rw [writeNumSlots]; split <;> rfl
@[simp] theorem writeNumSlots_nodeIp (v : Word32) (s : State) : (writeNumSlots v s).nodeIp = s.nodeIp := by
  rw [writeNumSlots]; split <;> rfl
@[simp] theorem writeNumSlots_srcA (v : Word32) (s : State) : (writeNumSlots v s).srcA = s.srcA := by
  rw [writeNumSlots]; split <;> rfl
@[simp] theorem writeNumSlots_srcB (v : Word32) (s : State) : (writeNumSlots v s).srcB = s.srcB := by
  rw [writeNumSlots]; split <;> rfl
@[simp] theorem writeNumSlots_slotsA (v : Word32) (s : State) : (writeNumSlots v s).slotsA = s.slotsA := by
  rw [writeNumSlots]; split <;> rfl
@[simp] theorem writeNumSlots_slotsB (v : Word32) (s : State) : (writeNumSlots v s).slotsB = s.slotsB := by
  rw [writeNumSlots]; split <;> rfl
@[simp] theorem writeNumSlots_a (v : Word32) (s : State) : (writeNumSlots v s).a = s.a := by
  rw [writeNumSlots]; split <;> rfl
@[simp] theorem writeNumSlots_b (v : Word32) (s : State) : (writeNumSlots v s).b = s.b := by
  rw [writeNumSlots]; split <;> rfl
@[simp] theorem writeNumSlots_out (v : Word32) (s : State) : (writeNumSlots v s).out = s.out := by
  rw [writeNumSlots]; split <;> rfl
@[simp] theorem writeNumSlots_rx (v : Word32) (s : State) : (writeNumSlots v s).rx = s.rx := by
  rw [writeNumSlots]; split <;> rfl
@[simp] theorem writeNumSlots_rxLen (v : Word32) (s : State) : (writeNumSlots v s).rxLen = s.rxLen := by
  rw [writeNumSlots]; split <;> rfl
@[simp] theorem writeNumSlots_tpl (v : Word32) (s : State) : (writeNumSlots v s).tpl = s.tpl := by
  rw [writeNumSlots]; split <;> rfl
@[simp] theorem writeNumSlots_result (v : Word32) (s : State) : (writeNumSlots v s).result = s.result := by
  rw [writeNumSlots]; split <;> rfl
@[simp] theorem writeNumSlots_rdata (v : Word32) (s : State) : (writeNumSlots v s).rdata = s.rdata := by
  rw [writeNumSlots]; split <;> rfl
@[simp] theorem writeNumSlots_tx (v : Word32) (s : State) : (writeNumSlots v s).tx = s.tx := by
  rw [writeNumSlots]; split <;> rfl
@[simp] theorem writeNumSlots_hostOps (v : Word32) (s : State) : (writeNumSlots v s).hostOps = s.hostOps := by
  rw [writeNumSlots]; split <;> rfl
@[simp] theorem writeNumSlots_port (v : Word32) (s : State) : (writeNumSlots v s).port = s.port := by
  rw [writeNumSlots]; split <;> rfl

/-! ### Result bits -/

@[simp] theorem cancelMerge_bit (s : State) : (cancelMerge s).1 = false := rfl
@[simp] theorem clearBuffer_bit (s : State) : (clearBuffer s).1 = true := rfl
@[simp] theorem noCommand_eq (s : State) : noCommand s = (false, s) := rfl
@[simp] theorem ignoreRoute_eq (len : Nat) (sender : Ip) (s : State) : ignoreRoute len sender s = (false, s) := rfl

end Sys2Proof.Machine
end

