-- ==== Sys2Proof/Laws/Receive.lean ====
section
/-! SUPPORT. What the receive path can do, said once: the captured packet as the handlers read it, and one case lemma per
handler. -/

namespace Sys2Proof.Machine

/-! ## The captured packet -/

/-- `RX` after a capture: the datagram's bytes, then what was there. -/
theorem capture_read (bytes : List Byte) (s : State) (i : Nat) :
    (capture bytes s).rx.read i = if i < bytes.length then bytes.getD i 0#8 else s.rx.read i := by
  rw [capture_rx, Memory.read_writeBytes]
  simp

/-- A captured packet byte at or beyond offset 10 is a byte of the packet's body. -/
theorem capture_packet_read (op : Opcode) (body : List Byte) (s : State) (i : Nat) (hi : 10 ≤ i)
    (hl : i < 10 + body.length) : (capture (packet op body) s).rx.read i = bodyByte body i := by
  rw [capture_read, if_pos (by simpa using hl)]
  exact packetByte_body op body i hi

/-- The levels a handler reads from a captured ArtDMX packet are the packet's. -/
theorem rxLevels_capture (op : Opcode) (body : List Byte) (s : State) (n i : Nat) (hn : 18 + n ≤ 10 + body.length)
    (hi : i < n) : (rxLevels (capture (packet op body) s).rx n).getD i 0#8 = bodyLevel body i := by
  rw [rxLevels, Memory.getD_readBytes, if_pos hi]
  exact capture_packet_read op body s (18 + i) (by omega) (by omega)

@[simp] theorem length_rxLevels (rx : Memory) (n : Nat) : (rxLevels rx n).length = n := by simp [rxLevels]

@[simp] theorem length_mergedLevels (a b : Memory) (n : Nat) : (mergedLevels a b n).length = n := by
  simp [mergedLevels]

/-- Level `i` of the merge. -/
theorem getD_mergedLevels (a b : Memory) (n i : Nat) (hi : i < n) :
    (mergedLevels a b n).getD i 0#8 = maxLevel (a.read i) (b.read i) := by
  simp [mergedLevels, List.getD_eq_getElem?_getD, hi]

/-- The larger level is the larger number (R149). -/
@[simp] theorem maxLevel_toNat (x y : Byte) : (maxLevel x y).toNat = max x.toNat y.toNat := by
  rw [maxLevel]
  split <;> omega

/-- The slot count of a captured ArtDMX packet with a whole header is the packet's (R85). -/
theorem rxSlotCount_capture (op : Opcode) (body : List Byte) (s : State) (h : 18 ≤ 10 + body.length) :
    rxSlotCount (capture (packet op body) s).rx = bodySlots body := by
  rw [rxSlotCount, capture_packet_read _ _ _ _ (by omega) (by omega),
    capture_packet_read _ _ _ _ (by omega) (by omega), bodySlots]

theorem State.paLo_toNat (s : State) : s.paLo.toNat = s.paLoNat := by
  rw [State.paLo, BitVec.toNat_append, State.paLoNat, ← Nat.shiftLeft_add_eq_or_of_lt s.univ.isLt, Nat.shiftLeft_eq]

theorem State.paHi_toNat (s : State) : s.paHi.toNat = s.net.toNat := by
  rw [State.paHi, BitVec.toNat_setWidth]
  exact Nat.mod_eq_of_lt (by have := s.net.isLt; omega)

@[simp] theorem capture_paLo (bytes : List Byte) (s : State) : (capture bytes s).paLo = s.paLo := rfl
@[simp] theorem capture_paHi (bytes : List Byte) (s : State) : (capture bytes s).paHi = s.paHi := rfl
@[simp] theorem capture_paLoNat (bytes : List Byte) (s : State) : (capture bytes s).paLoNat = s.paLoNat := rfl

/-- The address match of a captured ArtDMX packet with a whole header (R140). -/
theorem addressMatches_capture (op : Opcode) (body : List Byte) (s : State) (h : 18 ≤ 10 + body.length) :
    addressMatches (capture (packet op body) s) = true
      ↔ (bodyByte body 14).toNat = s.paLoNat ∧ (bodyByte body 15).toNat = s.net.toNat := by
  rw [addressMatches, capture_packet_read _ _ _ _ (by omega) (by omega),
    capture_packet_read _ _ _ _ (by omega) (by omega), Bool.and_eq_true, decide_eq_true_eq, decide_eq_true_eq,
    ← BitVec.toNat_inj, ← BitVec.toNat_inj, capture_paLo, capture_paHi, State.paLo_toNat, State.paHi_toNat]

/-! ## The validator and the dispatcher -/

theorem readBytes_capture_eight (bytes : List Byte) (s : State) (h : 8 ≤ bytes.length) :
    (capture bytes s).rx.readBytes 0 8 = bytes.take 8 := by
  apply List.ext_getElem
  · simp [h]
  · intro i h1 h2
    have hi : i < 8 := by simpa using h1
    simp only [Memory.readBytes, List.getElem_map, List.getElem_range, List.getElem_take, Nat.zero_add]
    rw [capture_read, if_pos (by omega), List.getD_eq_getElem?_getD, List.getElem?_eq_getElem (by omega),
      Option.getD_some]

/-- The validator on a captured datagram (R124). -/
theorem validate_capture (bytes : List Byte) (s : State) :
    validate (capture bytes s).rx bytes.length
      = if 10 ≤ bytes.length ∧ bytes.take 8 = Config.magic
        then (true, opcodeOfBytes (packetByte bytes 8) (packetByte bytes 9)) else (false, Config.opNotArtNet) := by
  rw [validate]
  by_cases hl : bytes.length < Config.headerLen
  · rw [if_pos hl, if_neg]
    exact fun h => absurd h.1 (by simpa using hl)
  · have hl' : 10 ≤ bytes.length := by simpa using hl
    rw [if_neg hl, readBytes_capture_eight bytes s (by omega)]
    by_cases hm : bytes.take 8 = Config.magic
    · rw [if_neg (by simpa using hm), if_pos ⟨hl', hm⟩, rxOpcode, capture_read, capture_read, if_pos (by omega),
        if_pos (by omega)]
      rfl
    · rw [if_pos hm, if_neg (fun h => hm h.2)]

/-- A captured packet with a header is dispatched by its opcode (R126). -/
theorem handle_capture_packet (op : Opcode) (body : List Byte) (sender : Ip) (s : State) :
    handle (packet op body).length sender (capture (packet op body) s)
      = dispatch op (packet op body).length sender (capture (packet op body) s) := by
  have hv : validate (capture (packet op body) s).rx (packet op body).length = (true, op) := by
    rw [validate_capture, if_pos (by simp)]
    simp
  rw [handle, hv]
  rfl

/-- A captured datagram without a header is ignored (R124). -/
theorem handle_capture_noHeader {bytes : List Byte} (h : ¬(10 ≤ bytes.length ∧ bytes.take 8 = Config.magic))
    (sender : Ip) (s : State) :
    handle bytes.length sender (capture bytes s) = (false, capture bytes s) := by
  have hv : validate (capture bytes s).rx bytes.length = (false, Config.opNotArtNet) := by
    rw [validate_capture, if_neg h]
  rw [handle, hv]
  rfl

/-! ## What a handler can do -/

/-- A reception either drops an oversize datagram or finishes a route on the captured one (R120). -/
theorem receive_cases (route : Nat → Ip → State → Bool × State) (sender : Ip) (bytes : List Byte) (s : State) :
    (Config.rxCap < bytes.length ∧ receive route sender bytes s = finish (false, s))
      ∨ (bytes.length ≤ Config.rxCap
          ∧ receive route sender bytes s = finish (route bytes.length sender (capture bytes s))) := by
  by_cases h : Config.rxCap < bytes.length
  · exact .inl ⟨h, by rw [receive, if_pos h]⟩
  · exact .inr ⟨by omega, by rw [receive, if_neg h]⟩

theorem receive_of_fits {route : Nat → Ip → State → Bool × State} {sender : Ip} {bytes : List Byte} {s : State}
    (h : bytes.length ≤ Config.rxCap) :
    receive route sender bytes s = finish (route bytes.length sender (capture bytes s)) := by
  rw [receive, if_neg (by omega)]

theorem receive_of_oversize {route : Nat → Ip → State → Bool × State} {sender : Ip} {bytes : List Byte} {s : State}
    (h : Config.rxCap < bytes.length) : receive route sender bytes s = finish (false, s) := by
  rw [receive, if_pos h]

/-- A route that does nothing leaves the dropped state (R251). -/
theorem receive_of_ignored {route : Nat → Ip → State → Bool × State} {sender : Ip} {bytes : List Byte} {s : State}
    (h : bytes.length ≤ Config.rxCap)
    (hr : route bytes.length sender (capture bytes s) = (false, capture bytes s)) :
    receive route sender bytes s = droppedState bytes s := by
  rw [receive_of_fits h, hr]
  rfl

/-- The HTP step: a frame to `A`, a frame to `B`, or a drop (R144 to R148). -/
theorem htpStep_cases (sender : Ip) (n : Nat) (s : State) :
    ((s.srcA = none ∨ s.srcA = some sender) ∧ htpStep sender n s = (true, frameA n (bindA sender s)))
      ∨ (∃ x, s.srcA = some x ∧ x ≠ sender ∧ (s.srcB = none ∨ s.srcB = some sender)
          ∧ htpStep sender n s = (true, frameB n (bindB sender s)))
      ∨ (∃ x y, s.srcA = some x ∧ x ≠ sender ∧ s.srcB = some y ∧ y ≠ sender ∧ htpStep sender n s = (false, s)) := by
  cases ha : s.srcA with
  | none =>
    refine .inl ⟨.inl rfl, ?_⟩
    have : (bindA sender s).srcA = some sender := by rw [bindA, if_pos ha]
    rw [htpStep, if_pos this]
  | some x =>
    have hb : bindA sender s = s := by rw [bindA, if_neg (by simp [ha])]
    by_cases hx : x = sender
    · subst hx
      exact .inl ⟨.inr rfl, by rw [htpStep, hb, if_pos ha]⟩
    · cases hs : s.srcB with
      | none =>
        refine .inr (.inl ⟨x, rfl, hx, .inl rfl, ?_⟩)
        have : (bindB sender s).srcB = some sender := by rw [bindB, if_pos hs]
        rw [htpStep, hb, if_neg (by simpa [ha] using hx), if_pos this]
      | some y =>
        have hb' : bindB sender s = s := by rw [bindB, if_neg (by simp [hs])]
        by_cases hy : y = sender
        · subst hy
          exact .inr (.inl ⟨x, rfl, hx, .inr rfl, by rw [htpStep, hb, if_neg (by simpa [ha] using hx), hb', if_pos hs]⟩)
        · refine .inr (.inr ⟨x, y, rfl, hx, rfl, hy, ?_⟩)
          rw [htpStep, hb, if_neg (by simpa [ha] using hx), hb', if_neg (by simpa [hs] using hy)]

/-- The single-source step: a copied frame or a drop (R150, R151). -/
theorem singleStep_cases (sender : Ip) (n : Nat) (s : State) :
    ((s.srcA = none ∨ s.srcA = some sender) ∧ (bindSingle sender s).srcA = some sender
        ∧ singleStep sender n s = (true, frameSingle n (bindSingle sender s)))
      ∨ (∃ x, s.srcA = some x ∧ x ≠ sender ∧ singleStep sender n s = (false, s)) := by
  cases ha : s.srcA with
  | none =>
    have : (bindSingle sender s).srcA = some sender := by rw [bindSingle, if_pos ha]
    exact .inl ⟨.inl rfl, this, by rw [singleStep, if_pos this]⟩
  | some x =>
    have hb : bindSingle sender s = s := by rw [bindSingle, if_neg (by simp [ha])]
    by_cases hx : x = sender
    · subst hx
      exact .inl ⟨.inr rfl, by rw [hb, ha], by rw [singleStep, hb, if_pos ha]⟩
    · refine .inr ⟨x, rfl, hx, ?_⟩
      rw [singleStep, hb, if_neg (by simpa [ha] using hx)]

/-- The ArtDMX handler: a drop, or a step of the mode with a count of at most 512 whose levels lie in the datagram
(R140 to R143). -/
theorem dmxHandler_cases (len : Nat) (sender : Ip) (s : State) :
    dmxHandler len sender s = (false, s)
      ∨ (18 + rxSlotCount s.rx ≤ len ∧ rxSlotCount s.rx ≤ 512 ∧ addressMatches s = true
          ∧ ((s.htpEn = true ∧ dmxHandler len sender s = htpStep sender (rxSlotCount s.rx) s)
            ∨ (s.htpEn = false ∧ dmxHandler len sender s = singleStep sender (rxSlotCount s.rx) s))) := by
  unfold dmxHandler
  by_cases h1 : len < Config.dmxHeaderLen
  · simp [h1]
  by_cases h2 : addressMatches s = false
  · simp [h1, h2]
  by_cases h3 : len < Config.dmxHeaderLen + rxSlotCount s.rx
  · simp [h1, h2, h3]
  by_cases h4 : Config.universeSize < rxSlotCount s.rx
  · simp [h1, h2, h3, h4]
  refine .inr ⟨by simpa using h3, by simpa using h4, by simpa using h2, ?_⟩
  cases h5 : s.htpEn <;> simp [h1, h2, h3, h4]

/-- Under the acceptance conditions the ArtDMX handler is the mode's step (R140 to R143). -/
theorem dmxHandler_of_fits {s : State} {body : List Byte} (h : FrameFits body s) (sender : Ip) :
    dmxHandler (packet Config.opDmx body).length sender (capture (packet Config.opDmx body) s)
      = if s.htpEn then htpStep sender (bodySlots body) (capture (packet Config.opDmx body) s)
        else singleStep sender (bodySlots body) (capture (packet Config.opDmx body) s) := by
  have hm := (addressMatches_capture Config.opDmx body s h.header).2 ⟨h.paLo, h.paHi⟩
  have hn := rxSlotCount_capture Config.opDmx body s h.header
  have h1 := h.header
  have h2 := h.whole
  have h3 := h.slots
  unfold dmxHandler
  rw [length_packet, if_neg (by simp; omega), if_neg (by simp [hm])]
  simp only [hn]
  rw [if_neg (by simp; omega), if_neg (by simpa using h3)]
  rfl

/-- The ArtAddress route: a drop, or fields, command and reply (R129). -/
theorem addressRouteWith_cases (command : State → Bool × State) (len : Nat) (sender : Ip) (s : State) :
    addressRouteWith command len sender s = (false, s)
      ∨ (107 ≤ len ∧ 14 ≤ (s.rx.read 11).toNat
          ∧ addressRouteWith command len sender s
            = ((command (applyFields s)).1, pollReply sender (command (applyFields s)).2)) := by
  by_cases h : Config.addressMinLen ≤ len ∧ Config.minVersion.toNat ≤ (s.rx.read 11).toNat
  · exact .inr ⟨h.1, h.2, by rw [addressRouteWith, if_pos h]⟩
  · exact .inl (by rw [addressRouteWith, if_neg h])

/-- The command byte: cancel-merge, clear-buffer, or nothing (R184). -/
theorem runCommand_cases (s : State) :
    (s.rx.read 106 = 0x01#8 ∧ runCommand s = cancelMerge s)
      ∨ (s.rx.read 106 = 0x90#8 ∧ runCommand s = clearBuffer s)
      ∨ (s.rx.read 106 ≠ 0x01#8 ∧ s.rx.read 106 ≠ 0x90#8 ∧ runCommand s = (false, s)) := by
  by_cases h1 : s.rx.read 106 = 0x01#8
  · exact .inl ⟨h1, by rw [runCommand, if_pos h1]⟩
  · by_cases h2 : s.rx.read 106 = 0x90#8
    · exact .inr (.inl ⟨h2, by rw [runCommand, if_neg h1, if_pos h2]⟩)
    · exact .inr (.inr ⟨h1, h2, by rw [runCommand, if_neg h1, if_neg h2]; rfl⟩)

/-- The ArtPoll route: a drop or a reply (R128). -/
theorem pollRoute_cases (len : Nat) (sender : Ip) (s : State) :
    pollRoute len sender s = (false, s)
      ∨ (14 ≤ len ∧ 14 ≤ (s.rx.read 11).toNat ∧ pollRoute len sender s = (false, pollReply sender s)) := by
  by_cases h : Config.pollMinLen ≤ len ∧ Config.minVersion.toNat ≤ (s.rx.read 11).toNat
  · exact .inr ⟨h.1, h.2, by rw [pollRoute, if_pos h]⟩
  · exact .inl (by rw [pollRoute, if_neg h])

/-! ## The step -/

/-- A step holds the state where nothing is issued, and else is the meaning of the next word's operation. -/
theorem step_cases (s : State) :
    (s.hostOps = [] ∧ step s = .next s)
      ∨ ∃ w rest, s.hostOps = w :: rest ∧ step s = exec (decodeWord w) { s with hostOps := rest } := by
  cases h : s.hostOps with
  | nil => exact .inl ⟨rfl, by simp [step, fetch, h]⟩
  | cons w rest => exact .inr ⟨w, rest, rfl, by simp [step, fetch, h]⟩

/-- What an `INGEST` can do: find no datagram, refuse one with a wrong `LEN`, or receive one (R120, R121, R252). -/
theorem execIngest_cases (present : Bool) (s : State) :
    ((present = false ∨ s.port = []) ∧ execIngest present s = .next (finish (false, s)))
      ∨ (∃ d rest, present = true ∧ s.port = d :: rest ∧ d.len.toNat ≠ d.bytes.length
          ∧ execIngest present s = .refused .hostViolation)
      ∨ ∃ d rest, present = true ∧ s.port = d :: rest ∧ d.len.toNat = d.bytes.length
          ∧ execIngest present s = .next (receive handle d.sender d.bytes { s with port := rest }) := by
  cases present with
  | false => exact .inl ⟨.inl rfl, by simp [execIngest]⟩
  | true =>
    cases h : s.port with
    | nil => exact .inl ⟨.inr rfl, by simp [execIngest, h]⟩
    | cons d rest =>
      by_cases hl : d.len.toNat = d.bytes.length
      · exact .inr (.inr ⟨d, rest, rfl, rfl, hl, by simp [execIngest, h, hl]⟩)
      · exact .inr (.inl ⟨d, rest, rfl, rfl, hl, by simp [execIngest, h, hl]⟩)

end Sys2Proof.Machine
end

