-- ==== Sys2Proof/Laws/Handlers.lean ====
section
/-! SUPPORT. What every handler leaves alone, the numbers behind the field updates and the merge, and the equations of the
verdict. -/

namespace Sys2Proof.Machine

/-! ## What no handler writes -/

/-- The state that no handler of the receive path writes: the mode, the broadcast configuration, the node address, the
captured packet and the queues (R186, R123). -/
structure HandlerFrame (s t : State) : Prop where
  htpEn : t.htpEn = s.htpEn
  bcastEn : t.bcastEn = s.bcastEn
  bcastIp : t.bcastIp = s.bcastIp
  nodeIp : t.nodeIp = s.nodeIp
  rx : t.rx = s.rx
  rxLen : t.rxLen = s.rxLen
  hostOps : t.hostOps = s.hostOps
  port : t.port = s.port

theorem HandlerFrame.refl (s : State) : HandlerFrame s s := ⟨rfl, rfl, rfl, rfl, rfl, rfl, rfl, rfl⟩

theorem HandlerFrame.trans {s t u : State} (h : HandlerFrame s t) (h' : HandlerFrame t u) : HandlerFrame s u :=
  ⟨h'.1.trans h.1, h'.2.trans h.2, h'.3.trans h.3, h'.4.trans h.4, h'.5.trans h.5, h'.6.trans h.6, h'.7.trans h.7,
    h'.8.trans h.8⟩

theorem bindA_frame (sender : Ip) (s : State) : HandlerFrame s (bindA sender s) := by
  unfold bindA
  split <;> constructor <;> rfl

theorem bindB_frame (sender : Ip) (s : State) : HandlerFrame s (bindB sender s) := by
  unfold bindB
  split <;> constructor <;> rfl

theorem bindSingle_frame (sender : Ip) (s : State) : HandlerFrame s (bindSingle sender s) := by
  unfold bindSingle
  split <;> constructor <;> rfl

theorem frameA_frame (n : Nat) (s : State) : HandlerFrame s (frameA n s) := by constructor <;> rfl

theorem frameB_frame (n : Nat) (s : State) : HandlerFrame s (frameB n s) := by constructor <;> rfl

theorem frameSingle_frame (n : Nat) (s : State) : HandlerFrame s (frameSingle n s) := by constructor <;> rfl

theorem pollReply_frame (sender : Ip) (s : State) : HandlerFrame s (pollReply sender s) := by constructor <;> rfl

theorem applyFields_frame (s : State) : HandlerFrame s (applyFields s) := by constructor <;> rfl

theorem runCommand_frame (s : State) : HandlerFrame s (runCommand s).2 := by
  rcases runCommand_cases s with ⟨_, h⟩ | ⟨_, h⟩ | ⟨_, _, h⟩ <;> rw [h] <;> constructor <;> rfl

theorem dmxHandler_frame (len : Nat) (sender : Ip) (s : State) : HandlerFrame s (dmxHandler len sender s).2 := by
  rcases dmxHandler_cases len sender s with h | ⟨_, _, _, ⟨_, h⟩ | ⟨_, h⟩⟩ <;> rw [h]
  · exact .refl s
  · rcases htpStep_cases sender (rxSlotCount s.rx) s with ⟨_, h⟩ | ⟨_, _, _, _, h⟩ | ⟨_, _, _, _, _, _, h⟩ <;> rw [h]
    · exact (bindA_frame _ _).trans (frameA_frame _ _)
    · exact (bindB_frame _ _).trans (frameB_frame _ _)
    · exact .refl s
  · rcases singleStep_cases sender (rxSlotCount s.rx) s with ⟨_, _, h⟩ | ⟨_, _, _, h⟩ <;> rw [h]
    · exact (bindSingle_frame _ _).trans (frameSingle_frame _ _)
    · exact .refl s

theorem pollRoute_frame (len : Nat) (sender : Ip) (s : State) : HandlerFrame s (pollRoute len sender s).2 := by
  rcases pollRoute_cases len sender s with h | ⟨_, _, h⟩ <;> rw [h]
  · exact .refl s
  · exact pollReply_frame _ _

theorem addressRouteWith_frame {command : State → Bool × State} (hc : ∀ s, HandlerFrame s (command s).2) (len : Nat)
    (sender : Ip) (s : State) : HandlerFrame s (addressRouteWith command len sender s).2 := by
  rcases addressRouteWith_cases command len sender s with h | ⟨_, _, h⟩ <;> rw [h]
  · exact .refl s
  · exact ((applyFields_frame s).trans (hc _)).trans (pollReply_frame _ _)

/-- No handler writes the frame, whatever the packet is. -/
theorem handle_frame (len : Nat) (sender : Ip) (s : State) : HandlerFrame s (handle len sender s).2 := by
  unfold handle dispatch
  dsimp only
  split_ifs
  · exact dmxHandler_frame _ _ _
  · exact pollRoute_frame _ _ _
  · exact addressRouteWith_frame runCommand_frame _ _ _
  · exact .refl s
  · exact .refl s

/-! ## Numbers -/

/-- A byte of `OUT` after a merge (R149). -/
theorem read_merge_out (s : State) (i : Nat) :
    (merge s).out.read i
      = if i < max s.slotsA s.slotsB then maxLevel (s.a.read i) (s.b.read i) else s.out.read i := by
  rw [merge_out, Memory.read_writeBytes]
  simp only [length_mergedLevels, Nat.zero_le, true_and, Nat.zero_add, Nat.sub_zero]
  split_ifs with h
  · rw [getD_mergedLevels _ _ _ _ h]
  · rfl

/-- The applied net field as a number (R181). -/
theorem netField_toNat (field : Byte) (old : BitVec 7) :
    (netField field old).toNat = if 128 ≤ field.toNat then field.toNat - 128 else old.toNat := by
  unfold netField
  have h : field.getLsbD 7 = decide (128 ≤ field.toNat) := by
    revert field
    decide
  rw [h]
  have := field.isLt
  by_cases h2 : 128 ≤ field.toNat
  · simp only [h2, decide_true, if_true, BitVec.extractLsb'_toNat, Nat.shiftRight_zero]
    omega
  · simp [h2]

/-- The applied universe or subnet field as a number; the sentinel 0x7F has bit 7 clear (R182, R183). -/
theorem nibbleField_toNat (field : Byte) (old : BitVec 4) :
    (nibbleField field old).toNat = if 128 ≤ field.toNat then field.toNat % 16 else old.toNat := by
  unfold nibbleField
  have h : field.getLsbD 7 = decide (128 ≤ field.toNat) := by
    revert field
    decide
  rw [h]
  by_cases h2 : 128 ≤ field.toNat
  · have hne : field ≠ Config.noChange := by
      rintro rfl
      exact absurd h2 (by decide)
    rw [if_pos ⟨hne, by simpa using h2⟩, if_pos h2]
    simp [BitVec.extractLsb'_toNat]
  · rw [if_neg (by simp [h2]), if_neg h2]

/-! ## The verdict -/

/-- With `PRESENT = 0` the verdict is `NoDatagram` (R132). -/
theorem ingestVerdict_absent (s : State) : ingestVerdict false s = .noDatagram := by
  unfold ingestVerdict
  rfl

/-- At an empty port the verdict is `NoDatagram` (entry 6). -/
theorem ingestVerdict_empty {s : State} (h : s.port = []) (present : Bool) : ingestVerdict present s = .noDatagram := by
  unfold ingestVerdict
  rw [h]
  cases present <;> rfl

/-- The verdict of a datagram at the port (R132). -/
theorem ingestVerdict_present {s : State} {d : Datagram} {rest : List Datagram} (h : s.port = d :: rest) :
    ingestVerdict true s
      = if Config.rxCap < d.bytes.length then .oversize
        else capturedVerdict d.bytes.length d.sender (capture d.bytes s) := by
  unfold ingestVerdict
  rw [h]

end Sys2Proof.Machine
end

