-- ==== Sys2Proof/Laws/HostOps.lean ====
section
/-! SUPPORT. The CSR map, number by number, the host's byte reads, and the words of script lines. -/

namespace Sys2Proof.Machine

/-! ## The CSR map (R33 to R41) -/

@[simp] theorem csrValue_ctrl (s : State) :
    csrValue 0x00#16 s = (BitVec.ofBool s.bcastEn ++ BitVec.ofBool s.htpEn : BitVec 2).setWidth 32 := rfl
@[simp] theorem csrValue_portAddr (s : State) : csrValue 0x01#16 s = s.pa.setWidth 32 := rfl
@[simp] theorem csrValue_nodeIp (s : State) : csrValue 0x02#16 s = s.nodeIp := rfl
@[simp] theorem csrValue_bcastIp (s : State) : csrValue 0x03#16 s = s.bcastIp := rfl
@[simp] theorem csrValue_numSlots (s : State) : csrValue 0x04#16 s = BitVec.ofNat 32 s.outSlots := rfl
@[simp] theorem csrValue_result (s : State) : csrValue 0x05#16 s = (BitVec.ofBool s.result).setWidth 32 := rfl
@[simp] theorem csrValue_rxLen (s : State) : csrValue 0x06#16 s = BitVec.ofNat 32 s.rxLen := rfl

/-- A reserved number reads 0 (R41). -/
theorem csrValue_reserved {idx : Index} (h : 7 ≤ idx.toNat) (s : State) : csrValue idx s = 0 := by
  obtain ⟨k, hk⟩ : ∃ k, idx.toNat = k + 7 := ⟨idx.toNat - 7, by omega⟩
  rw [csrValue, hk]
  rfl

@[simp] theorem writeCsr_ctrl (v : Word32) (s : State) : writeCsr 0x00#16 v s = writeCtrl v s := rfl
@[simp] theorem writeCsr_portAddr (v : Word32) (s : State) : writeCsr 0x01#16 v s = writePortAddr v s := rfl
@[simp] theorem writeCsr_nodeIp (v : Word32) (s : State) : writeCsr 0x02#16 v s = writeNodeIp v s := rfl
@[simp] theorem writeCsr_bcastIp (v : Word32) (s : State) : writeCsr 0x03#16 v s = writeBcastIp v s := rfl
@[simp] theorem writeCsr_numSlots (v : Word32) (s : State) : writeCsr 0x04#16 v s = writeNumSlots v s := rfl

/-- A read-only or reserved number ignores a write (R39 to R41). -/
theorem writeCsr_ignored {idx : Index} (h : 5 ≤ idx.toNat) (v : Word32) (s : State) : writeCsr idx v s = s := by
  obtain ⟨k, hk⟩ : ∃ k, idx.toNat = k + 5 := ⟨idx.toNat - 5, by omega⟩
  rw [writeCsr, hk]
  rfl

/-- A CSR write is the write of one of the five writable registers, or nothing (R221). -/
theorem writeCsr_cases (idx : Index) (v : Word32) (s : State) :
    (idx = 0x00#16 ∧ writeCsr idx v s = writeCtrl v s) ∨ (idx = 0x01#16 ∧ writeCsr idx v s = writePortAddr v s)
      ∨ (idx = 0x02#16 ∧ writeCsr idx v s = writeNodeIp v s) ∨ (idx = 0x03#16 ∧ writeCsr idx v s = writeBcastIp v s)
      ∨ (idx = 0x04#16 ∧ writeCsr idx v s = writeNumSlots v s) ∨ (5 ≤ idx.toNat ∧ writeCsr idx v s = s) := by
  have hidx : idx = BitVec.ofNat 16 idx.toNat := by simp
  rcases h : idx.toNat with _ | _ | _ | _ | _ | k
  · rw [h] at hidx; exact .inl ⟨hidx, by rw [hidx]; rfl⟩
  · rw [h] at hidx; exact .inr (.inl ⟨hidx, by rw [hidx]; rfl⟩)
  · rw [h] at hidx; exact .inr (.inr (.inl ⟨hidx, by rw [hidx]; rfl⟩))
  · rw [h] at hidx; exact .inr (.inr (.inr (.inl ⟨hidx, by rw [hidx]; rfl⟩)))
  · rw [h] at hidx; exact .inr (.inr (.inr (.inr (.inl ⟨hidx, by rw [hidx]; rfl⟩))))
  · exact .inr (.inr (.inr (.inr (.inr ⟨by omega, writeCsr_ignored (by omega) v s⟩))))

/-- A `CTRL` write: enable and broadcast bit, or the broadcast bit alone (R34). -/
theorem writeCtrl_cases (v : Word32) (s : State) :
    (v.getLsbD 0 = true ∧ writeCtrl v s = { enableHtp s with bcastEn := v.getLsbD 1 })
      ∨ (v.getLsbD 0 = false ∧ writeCtrl v s = { s with bcastEn := v.getLsbD 1 }) := by
  cases h : v.getLsbD 0
  · exact .inr ⟨rfl, by rw [writeCtrl, h]; rfl⟩
  · exact .inl ⟨rfl, by rw [writeCtrl, h]; rfl⟩

/-- Enable while enabled does nothing (R154). -/
theorem enableHtp_of_enabled {s : State} (h : s.htpEn = true) : enableHtp s = s := by rw [enableHtp, if_pos h]

/-- Enable in single-source mode starts a fresh merge (R154). -/
theorem enableHtp_of_disabled {s : State} (h : s.htpEn = false) :
    enableHtp s =
      { s with
        htpEn := true, srcA := none, srcB := none, a := s.a.zeroRange 0 512, b := s.b.zeroRange 0 512
        out := s.out.zeroRange 0 512, slotsA := 0, slotsB := 0, outSlots := 0 } := by
  rw [enableHtp, if_neg (by simp [h])]

/-- A `NUM_SLOTS` write of at most 512 (R38). -/
theorem writeNumSlots_of_le {v : Word32} (h : v.toNat ≤ 512) (s : State) :
    writeNumSlots v s = { s with outSlots := v.toNat } := by rw [writeNumSlots, if_pos h]

/-- A larger `NUM_SLOTS` write (R38). -/
theorem writeNumSlots_of_gt {v : Word32} (h : 512 < v.toNat) (s : State) : writeNumSlots v s = s := by
  rw [writeNumSlots, if_neg (Nat.not_le.2 h)]

/-- A host read inside the readable range (R62 to R64). -/
theorem hostByte_of_lt {m : Memory} {size : Nat} {idx : Index} (h : idx.toNat < size) :
    hostByte m size idx = (m.read idx.toNat).setWidth 32 := by rw [hostByte, if_pos h]

/-- A host read outside the readable range (R62 to R64). -/
theorem hostByte_of_le {m : Memory} {size : Nat} {idx : Index} (h : size ≤ idx.toNat) : hostByte m size idx = 0 := by
  rw [hostByte, if_neg (Nat.not_lt.2 h)]

/-! ## Script words (R97) -/

/-- The word of a script line is the host word of its operation code (R92, R97). -/
theorem scriptWord_eq_hostWord (op : BitVec 4) (idx : Index) (data : Word32) :
    scriptWord op.toNat idx data = hostWord op idx data := by
  have hop : (BitVec.ofNat 64 op.toNat) = op.setWidth 64 := BitVec.eq_of_toNat_eq (by simp)
  apply BitVec.eq_of_getLsbD_eq
  intro i hi
  simp only [scriptWord, hop, hostWord, BitVec.getLsbD_or, BitVec.getLsbD_shiftLeft, BitVec.getLsbD_append,
    BitVec.getLsbD_setWidth, BitVec.getLsbD_zero]
  have ho : ∀ j, 4 ≤ j → op.getLsbD j = false := fun j hj => BitVec.getLsbD_of_ge op j hj
  have hx : ∀ j, 16 ≤ j → idx.getLsbD j = false := fun j hj => BitVec.getLsbD_of_ge idx j hj
  have hd : ∀ j, 32 ≤ j → data.getLsbD j = false := fun j hj => BitVec.getLsbD_of_ge data j hj
  by_cases h1 : i < 32
  · simp [h1, show i < 60 by omega, show i < 40 by omega, show i < 64 by omega]
  by_cases h2 : i < 40
  · simp [h1, show i - 32 < 8 by omega, show i < 60 by omega, h2, hd i (by omega)]
  by_cases h3 : i < 56
  · simp [h1, show ¬i - 32 < 8 by omega, show i < 60 by omega, h2, hd i (by omega),
      show i < 64 by omega, show i - 40 < 64 by omega, show i - 32 - 8 = i - 40 by omega, show i - 40 < 16 by omega]
  by_cases h4 : i < 60
  · simp [h1, show ¬i - 32 < 8 by omega, show ¬i - 32 - 8 < 16 by omega, h4, show i - 32 - 8 - 16 < 4 by omega,
      hd i (by omega), hx (i - 40) (by omega)]
  · simp [h1, show ¬i - 32 < 8 by omega, show ¬i - 32 - 8 < 16 by omega, h4, show ¬i - 32 - 8 - 16 < 4 by omega,
      hd i (by omega), hx (i - 40) (by omega), hi, show i - 60 < 64 by omega,
      show i - 32 - 8 - 16 - 4 = i - 60 by omega]

end Sys2Proof.Machine
end

