-- ==== Sys2Proof/Laws/PerInstr.lean ====
section
/-! SUPPORT. The family `TableKey`: the encoding of every instruction carries the key that its row of
spec/opcode_table.json gives it. -/

namespace Sys2Proof.Laws

/-- The key of a row, as spec/opcode_table.json writes it in its match and mask. -/
inductive RowKey where
  /-- host64: the operation code, bits 63:60. -/
  | op (code : Nat)
  /-- artnet_datagram, an exact opcode: bytes 0..9. -/
  | bytes (key : List Byte)
  /-- artnet_datagram, any other opcode: bytes 0..7, and bytes 8..9 none of the listed pairs. -/
  | otherOpcode (key : List Byte) (not : List (List Byte))
  /-- artnet_datagram, no header: fewer than ten bytes, or bytes 0..7 not these. -/
  | noHeader (key : List Byte)
  /-- artaddress_command: bytes 0..9 and byte 106. -/
  | command (key : List Byte) (byte : Byte)
  /-- artaddress_command, the default: bytes 0..9, and byte 106 none of these. -/
  | otherCommand (key : List Byte) (not : List Byte)
  /-- emitted datagram: bytes 0..9. -/
  | emitted (key : List Byte)

/-- The eight magic bytes of every match (R82). -/
def magicKey : List Byte := [0x41#8, 0x72#8, 0x74#8, 0x2D#8, 0x4E#8, 0x65#8, 0x74#8, 0x00#8]

/-- The encoding is of the key's format and carries the key; a host word's reserved bits are 0 (R97). -/
def Carries : Encoding → RowKey → Prop
  | .host64 w, .op code => opField w = BitVec.ofNat 4 code ∧ w &&& 0x0F0000FF00000000#64 = 0
  | .artnetDatagram d, .bytes key => d.bytes.take 10 = key
  | .artnetDatagram d, .otherOpcode key others =>
      d.bytes.take 8 = key ∧ 10 ≤ d.bytes.length ∧ (d.bytes.drop 8).take 2 ∉ others
  | .artnetDatagram d, .noHeader key => d.bytes.length < 10 ∨ d.bytes.take 8 ≠ key
  | .artAddressCommand d, .command key byte => d.bytes.take 10 = key ∧ d.bytes[106]? = some byte
  | .artAddressCommand d, .otherCommand key others =>
      d.bytes.take 10 = key ∧ ∃ c, d.bytes[106]? = some c ∧ c ∉ others
  | .emittedDatagram _ bytes, .emitted key => bytes.take 10 = key
  | _, _ => False

/-- The key of each row of spec/opcode_table.json. -/
def rowKey : Instr → RowKey
  | .artDMX _ _ => .bytes (magicKey ++ [0x00#8, 0x50#8])
  | .artPoll _ _ => .bytes (magicKey ++ [0x00#8, 0x20#8])
  | .artAddress _ _ => .bytes (magicKey ++ [0x00#8, 0x60#8])
  | .artPollReplyReceived _ _ => .bytes (magicKey ++ [0x00#8, 0x21#8])
  | .artUnknownOpcode _ _ _ =>
      .otherOpcode magicKey [[0x00#8, 0x50#8], [0x00#8, 0x20#8], [0x00#8, 0x60#8], [0x00#8, 0x21#8]]
  | .notArtNet _ _ => .noHeader magicKey
  | .artAddressCancelMerge _ _ _ => .command (magicKey ++ [0x00#8, 0x60#8]) 0x01#8
  | .artAddressClearBuffer _ _ _ => .command (magicKey ++ [0x00#8, 0x60#8]) 0x90#8
  | .artAddressNoCommand _ _ _ _ => .otherCommand (magicKey ++ [0x00#8, 0x60#8]) [0x01#8, 0x90#8]
  | .artPollReplyEmitted _ => .emitted (magicKey ++ [0x00#8, 0x21#8])
  | .nop => .op 0x0
  | .csrRead _ => .op 0x1
  | .csrWrite _ _ => .op 0x2
  | .outRead _ => .op 0x3
  | .outWrite _ _ => .op 0x4
  | .tplRead _ => .op 0x5
  | .tplWrite _ _ => .op 0x6
  | .rxRead _ => .op 0x7
  | .ingest _ => .op 0x8
  | .reservedOp9 => .op 0x9
  | .reservedOpA => .op 0xA
  | .reservedOpB => .op 0xB
  | .reservedOpC => .op 0xC
  | .reservedOpD => .op 0xD
  | .reservedOpE => .op 0xE
  | .reservedOpF => .op 0xF

/-- The encoding of a well-formed instruction carries its row's key. -/
def TableKey.Statement (i : Instr) : Prop := i.wellFormed = true → Carries (encode i) (rowKey i)

/-! ## The parts of an encoding that a key reads -/

theorem hostWord_reserved (op : BitVec 4) (idx : Index) (data : Word32) :
    hostWord op idx data &&& 0x0F0000FF00000000#64 = 0 := by
  have hm : ∀ j, j < 64 → (0x0F0000FF00000000#64).getLsbD j = decide (32 ≤ j ∧ j < 40 ∨ 56 ≤ j ∧ j < 60) := by decide
  apply BitVec.eq_of_getLsbD_eq
  intro i hi
  rw [BitVec.getLsbD_and, hm i hi, show (0 : HostWord).getLsbD i = false from BitVec.getLsbD_zero,
    Bool.and_eq_false_iff, decide_eq_false_iff_not]
  by_cases h1 : 32 ≤ i ∧ i < 40
  · left
    simp only [hostWord, BitVec.getLsbD_append]
    simp (disch := omega) only [if_neg, if_pos]
    simp
  by_cases h2 : 56 ≤ i ∧ i < 60
  · left
    simp only [hostWord, BitVec.getLsbD_append]
    simp (disch := omega) only [if_neg, if_pos]
    simp
  · right
    omega

theorem carries_hostWord (code : BitVec 4) (idx : Index) (data : Word32) :
    Carries (.host64 (hostWord code idx data)) (.op code.toNat) := by
  refine ⟨?_, hostWord_reserved code idx data⟩
  simp

theorem getElem?_addressPacket {front : List Byte} (hf : front.length = 96) (c : Byte) (tail : List Byte) :
    (addressPacket front c tail)[106]? = some c := by
  have hl : (Config.magic ++ opcodeBytes Config.opAddress).length = 10 := rfl
  rw [addressPacket, packet, List.getElem?_append_right (by omega), hl, List.getElem?_append_right (by omega), hf]
  rfl

end Sys2Proof.Laws

namespace Sys2Proof.Laws.TableKey

theorem artDMX (sender : Ip) (body : List Byte) : Statement (.artDMX sender body) := fun _ => rfl

theorem artPoll (sender : Ip) (body : List Byte) : Statement (.artPoll sender body) := fun _ => rfl

theorem artAddress (sender : Ip) (body : List Byte) : Statement (.artAddress sender body) := fun _ => rfl

theorem artPollReplyReceived (sender : Ip) (body : List Byte) : Statement (.artPollReplyReceived sender body) :=
  fun _ => rfl

theorem artUnknownOpcode (sender : Ip) (op : Opcode) (body : List Byte) :
    Statement (.artUnknownOpcode sender op body) := by
  intro h
  simp only [Instr.wellFormed, Bool.and_eq_true, decide_eq_true_eq] at h
  obtain ⟨⟨⟨⟨_, h1⟩, h2⟩, h3⟩, h4⟩ := h
  refine ⟨rfl, by simp [datagramOf], ?_⟩
  have hd : ((datagramOf sender (packet op body)).bytes.drop 8).take 2 = opcodeBytes op := rfl
  have key : ∀ lo hi : Byte, opcodeBytes op = [lo, hi] → op = opcodeOfBytes lo hi := by
    intro lo hi he
    rw [opcodeBytes, List.cons.injEq, List.cons.injEq] at he
    rw [← he.1, ← he.2.1, opcodeOfBytes_split]
  rw [hd]
  simp only [List.mem_cons, List.not_mem_nil, or_false, not_or]
  exact ⟨fun he => h1 (key _ _ he), fun he => h2 (key _ _ he), fun he => h3 (key _ _ he), fun he => h4 (key _ _ he)⟩

theorem notArtNet (sender : Ip) (bytes : List Byte) : Statement (.notArtNet sender bytes) := by
  intro h
  simp only [Instr.wellFormed, hasHeader, Bool.and_eq_true, Bool.not_eq_true', Bool.and_eq_false_iff,
    decide_eq_false_iff_not] at h
  rcases h.2 with h | h
  · exact .inl (Nat.lt_of_not_le h)
  · exact .inr h

theorem artAddressCancelMerge (sender : Ip) (front tail : List Byte) :
    Statement (.artAddressCancelMerge sender front tail) := by
  intro h
  simp only [Instr.wellFormed, Bool.and_eq_true, decide_eq_true_eq] at h
  exact ⟨rfl, getElem?_addressPacket h.1 _ tail⟩

theorem artAddressClearBuffer (sender : Ip) (front tail : List Byte) :
    Statement (.artAddressClearBuffer sender front tail) := by
  intro h
  simp only [Instr.wellFormed, Bool.and_eq_true, decide_eq_true_eq] at h
  exact ⟨rfl, getElem?_addressPacket h.1 _ tail⟩

theorem artAddressNoCommand (sender : Ip) (front : List Byte) (command : Byte) (tail : List Byte) :
    Statement (.artAddressNoCommand sender front command tail) := by
  intro h
  simp only [Instr.wellFormed, Bool.and_eq_true, decide_eq_true_eq] at h
  obtain ⟨⟨⟨hf, _⟩, h1⟩, h2⟩ := h
  refine ⟨rfl, command, getElem?_addressPacket hf _ tail, ?_⟩
  simp only [List.mem_cons, List.not_mem_nil, or_false, not_or]
  exact ⟨h1, h2⟩

theorem artPollReplyEmitted (sender : Ip) : Statement (.artPollReplyEmitted sender) := fun _ => rfl

theorem nop : Statement .nop := fun _ => carries_hostWord _ _ _

theorem csrRead (idx : Index) : Statement (.csrRead idx) := fun _ => carries_hostWord _ _ _

theorem csrWrite (idx : Index) (data : Word32) : Statement (.csrWrite idx data) := fun _ => carries_hostWord _ _ _

theorem outRead (idx : Index) : Statement (.outRead idx) := fun _ => carries_hostWord _ _ _

theorem outWrite (idx : Index) (byte : Byte) : Statement (.outWrite idx byte) := fun _ => carries_hostWord _ _ _

theorem tplRead (idx : Index) : Statement (.tplRead idx) := fun _ => carries_hostWord _ _ _

theorem tplWrite (idx : Index) (byte : Byte) : Statement (.tplWrite idx byte) := fun _ => carries_hostWord _ _ _

theorem rxRead (idx : Index) : Statement (.rxRead idx) := fun _ => carries_hostWord _ _ _

theorem ingest (present : Bool) : Statement (.ingest present) := fun _ => carries_hostWord _ _ _

theorem reservedOp9 : Statement .reservedOp9 := fun _ => carries_hostWord _ _ _

theorem reservedOpA : Statement .reservedOpA := fun _ => carries_hostWord _ _ _

theorem reservedOpB : Statement .reservedOpB := fun _ => carries_hostWord _ _ _

theorem reservedOpC : Statement .reservedOpC := fun _ => carries_hostWord _ _ _

theorem reservedOpD : Statement .reservedOpD := fun _ => carries_hostWord _ _ _

theorem reservedOpE : Statement .reservedOpE := fun _ => carries_hostWord _ _ _

theorem reservedOpF : Statement .reservedOpF := fun _ => carries_hostWord _ _ _

end Sys2Proof.Laws.TableKey
end

