-- ==== Sys2Proof/Tests/Slice0.lean ====
section
/-! SUPPORT. Tests: ill-formed instructions, words and packets written out from spec/30_encoding.md, single steps with the
expected values of spec/95_test_vectors.md, and for every obligation a state and operands that meet its hypotheses. -/

open Sys2Proof Sys2Proof.Machine

namespace Sys2Proof.Tests

set_option Elab.async false

/-! ## Helpers -/

/-- The address 10.0.0.d. -/
def ip (d : Byte) : Ip := 0x0A0000#24 ++ d

/-- The state after an outcome; a stop gives the reset state. -/
def after : Host.Outcome State Fault Refusal → State
  | .next t => t
  | .fault _ => State.reset
  | .refused _ => State.reset

/-- Whether the outcome is a next state. -/
def isNext : Host.Outcome State Fault Refusal → Bool
  | .next _ => true
  | .fault _ => false
  | .refused _ => false

theorem next_of_isNext {o : Host.Outcome State Fault Refusal} (h : isNext o = true) : o = .next (after o) := by
  cases o <;> first | rfl | cases h

/-- The refusal of an outcome. -/
def refusal : Host.Outcome State Fault Refusal → Option Refusal
  | .next _ => none
  | .fault _ => none
  | .refused r => some r

/-- One step on a script line. -/
def run (l : ScriptLine) (s : State) : State := after (runLine l s)

/-- One step on a host word. -/
def runWord (w : HostWord) (s : State) : State := after (step (issue w [] s))

/-- `ingest dmx 10.0.0.d, pa, net, data`. -/
def dmx (d pa net : Byte) (data : List Byte) : ScriptLine :=
  .ingestDmx { sender := ip d, pa := pa, net := net, data := data }

/-- `ingest addr 10.0.0.7` with four fields. -/
def addr (net uni sub cmd : Byte) : ScriptLine :=
  .ingestAddr { sender := ip 7#8, net := net, uni := uni, sub := sub, cmd := cmd }

/-- The first `n` levels of an array, from index 0. -/
def levels (m : Memory) (n : Nat) : List Byte := m.readBytes 0 n

/-- The bytes after the ten key bytes of the packet of `ingest dmx`. -/
def dmxBody (pa net : Byte) (data : List Byte) : List Byte :=
  (DmxLine.packet { sender := 0, pa := pa, net := net, data := data }).drop 10

/-- The bytes after the ten key bytes of the packet of `ingest addr`. -/
def addrBody (ver cmd : Byte) : List Byte := (AddrLine.packet { sender := 0, cmd := cmd, ver := ver }).drop 10

/-- The bytes 10..105 of an ArtAddress packet with a version and no field set. -/
def addrFront (ver : Byte) : List Byte := (addrBody ver 0#8).take 96

/-- HTP mode, source A bound to 10.0.0.1. -/
def stateA : State :=
  { State.reset with htpEn := true, srcA := some (ip 1#8), slotsA := 4, outSlots := 4
                     a := Memory.writeBytes [] 0 [10#8, 200#8, 0#8, 50#8]
                     out := Memory.writeBytes [] 0 [10#8, 200#8, 0#8, 50#8] }

/-- HTP mode, both sources bound: the state of vector V-HTP-2. -/
def stateAB : State :=
  { stateA with srcB := some (ip 2#8), slotsB := 2, b := Memory.writeBytes [] 0 [100#8, 100#8]
                out := Memory.writeBytes [] 0 [100#8, 200#8, 0#8, 50#8] }

/-- HTP mode, A unbound and B bound: the state after a clear-buffer. -/
def stateB : State := { stateAB with srcA := none, out := [], outSlots := 512 }

/-- Single-source mode, source A bound to 10.0.0.1. -/
def stateS : State :=
  { State.reset with srcA := some (ip 1#8), slotsA := 2, outSlots := 2, out := Memory.writeBytes [] 0 [9#8, 9#8] }

/-- A length of at most 530 fits the receive buffer. -/
theorem fits_small {n : Nat} (h : n ≤ 530) : n ≤ Config.rxCap := by
  unfold Config.rxCap
  omega

/-! ## WellFormed smoke: each check refuses an ill-formed term -/

theorem test_wf_long_body : (Instr.artDMX 0 (List.replicate 65526 0#8)).wellFormed = false := by
  simp only [Instr.wellFormed, fitsLen, List.length_replicate]
  decide +kernel

theorem test_wf_long_bytes : (Instr.notArtNet 0 (List.replicate 65536 0#8)).wellFormed = false := by
  simp only [Instr.wellFormed, fitsLen, List.length_replicate]
  decide +kernel

theorem test_wf_long_tail : (Instr.artAddressCancelMerge 0 (List.replicate 96 0#8) (List.replicate 65429 0#8)).wellFormed
    = false := by
  simp only [Instr.wellFormed, fitsLen, List.length_replicate]
  decide +kernel

theorem test_wf_unknown_is_dmx : (Instr.artUnknownOpcode 0 0x5000#16 []).wellFormed = false := by decide +kernel
theorem test_wf_unknown_is_poll : (Instr.artUnknownOpcode 0 0x2000#16 []).wellFormed = false := by decide +kernel
theorem test_wf_unknown_is_address : (Instr.artUnknownOpcode 0 0x6000#16 []).wellFormed = false := by decide +kernel
theorem test_wf_unknown_is_reply : (Instr.artUnknownOpcode 0 0x2100#16 []).wellFormed = false := by decide +kernel

theorem test_wf_header : (Instr.notArtNet 0
    [0x41#8, 0x72#8, 0x74#8, 0x2D#8, 0x4E#8, 0x65#8, 0x74#8, 0x00#8, 0x00#8, 0x50#8]).wellFormed = false := by decide +kernel

theorem test_wf_front : (Instr.artAddressClearBuffer 0 (List.replicate 95 0#8) []).wellFormed = false := by decide +kernel
theorem test_wf_no_command_is_cancel :
    (Instr.artAddressNoCommand 0 (List.replicate 96 0#8) 0x01#8 []).wellFormed = false := by decide +kernel
theorem test_wf_no_command_is_clear :
    (Instr.artAddressNoCommand 0 (List.replicate 96 0#8) 0x90#8 []).wellFormed = false := by decide +kernel
theorem test_wf_accepts :
    (Instr.artAddressNoCommand 0 (List.replicate 96 0#8) 0x02#8 []).wellFormed = true
      ∧ (Instr.notArtNet 0 [0x41#8]).wellFormed = true ∧ (Instr.artUnknownOpcode 0 0x5001#16 []).wellFormed = true := by
  decide +kernel

/-! ## Decoding, from words and bytes written out from R81 to R93 -/

/-- R92, R93: bits 63:60 the code, 55:40 the index, 31:0 the datum. -/
theorem test_decode_nop : decodeWord 0x0000000000000000#64 = .nop := by decide +kernel
theorem test_decode_csrr : decodeWord 0x1000050000000000#64 = .csrRead 5#16 := by decide +kernel
theorem test_decode_csrw : decodeWord 0x200002000A000063#64 = .csrWrite 2#16 0x0A000063#32 := by decide +kernel
theorem test_decode_outr : decodeWord 0x3002000000000000#64 = .outRead 512#16 := by decide +kernel
theorem test_decode_outw : decodeWord 0x40000500000001FF#64 = .outWrite 5#16 0xFF#8 := by decide +kernel
theorem test_decode_tplr : decodeWord 0x5000BE0000000000#64 = .tplRead 190#16 := by decide +kernel
theorem test_decode_tplw : decodeWord 0x6000AD0000000001#64 = .tplWrite 173#16 0x01#8 := by decide +kernel
theorem test_decode_rxr : decodeWord 0x7000090000000000#64 = .rxRead 9#16 := by decide +kernel
theorem test_decode_ingest : decodeWord 0x8000000000000001#64 = .ingest true ∧ decodeWord 0x8000000000000002#64 = .ingest false := by
  decide +kernel
theorem test_decode_reserved :
    decodeWord 0x9000000000000000#64 = .reservedOp9 ∧ decodeWord 0xA000000000000000#64 = .reservedOpA
      ∧ decodeWord 0xB000000000000000#64 = .reservedOpB ∧ decodeWord 0xC000000000000000#64 = .reservedOpC
      ∧ decodeWord 0xD000000000000000#64 = .reservedOpD ∧ decodeWord 0xE000000000000000#64 = .reservedOpE
      ∧ decodeWord 0xF000000000000000#64 = .reservedOpF := by decide +kernel
/-- R94: the reserved bits are ignored. -/
theorem test_decode_reserved_bits : decodeWord 0x1F0001FF00000000#64 = .csrRead 1#16 := by decide +kernel

/-- P1 step 3: an ArtDMX packet, opcode bytes 00 50. -/
theorem test_decode_dmx :
    decodeDatagram ⟨20, ip 2#8, [0x41#8, 0x72#8, 0x74#8, 0x2D#8, 0x4E#8, 0x65#8, 0x74#8, 0x00#8, 0x00#8, 0x50#8, 0x00#8,
      0x0E#8, 0x00#8, 0x00#8, 0x01#8, 0x00#8, 0x00#8, 0x02#8, 0x64#8, 0x64#8]⟩
      = .artDMX (ip 2#8) [0x00#8, 0x0E#8, 0x00#8, 0x00#8, 0x01#8, 0x00#8, 0x00#8, 0x02#8, 0x64#8, 0x64#8] := by decide +kernel

theorem test_decode_poll :
    decodeDatagram ⟨14, ip 5#8, [0x41#8, 0x72#8, 0x74#8, 0x2D#8, 0x4E#8, 0x65#8, 0x74#8, 0x00#8, 0x00#8, 0x20#8, 0x00#8,
      0x0E#8, 0x00#8, 0x00#8]⟩ = .artPoll (ip 5#8) [0x00#8, 0x0E#8, 0x00#8, 0x00#8] := by decide +kernel

theorem test_decode_address :
    decodeDatagram ⟨12, ip 7#8, [0x41#8, 0x72#8, 0x74#8, 0x2D#8, 0x4E#8, 0x65#8, 0x74#8, 0x00#8, 0x00#8, 0x60#8, 0x00#8,
      0x0E#8]⟩ = .artAddress (ip 7#8) [0x00#8, 0x0E#8] := by decide +kernel

theorem test_decode_reply_received :
    decodeDatagram ⟨12, ip 5#8, [0x41#8, 0x72#8, 0x74#8, 0x2D#8, 0x4E#8, 0x65#8, 0x74#8, 0x00#8, 0x00#8, 0x21#8, 0x00#8,
      0x0E#8]⟩ = .artPollReplyReceived (ip 5#8) [0x00#8, 0x0E#8] := by decide +kernel

/-- V-VAL-6: opcode bytes 50 00 are opcode 0x0050. -/
theorem test_decode_unknown :
    decodeDatagram ⟨10, ip 1#8, [0x41#8, 0x72#8, 0x74#8, 0x2D#8, 0x4E#8, 0x65#8, 0x74#8, 0x00#8, 0x50#8, 0x00#8]⟩
      = .artUnknownOpcode (ip 1#8) 0x0050#16 [] := by decide +kernel

/-- V-VAL-3: a space at offset 7. -/
theorem test_decode_not_artnet :
    decodeDatagram ⟨10, ip 5#8, [0x41#8, 0x72#8, 0x74#8, 0x2D#8, 0x4E#8, 0x65#8, 0x74#8, 0x20#8, 0x00#8, 0x50#8]⟩
      = .notArtNet (ip 5#8) [0x41#8, 0x72#8, 0x74#8, 0x2D#8, 0x4E#8, 0x65#8, 0x74#8, 0x20#8, 0x00#8, 0x50#8] := by decide +kernel

/-- The key of the artaddress_command rows (bytes 0..9 and byte 106), every other byte 0. -/
def commandKey (c : Byte) : List Byte :=
  [0x41#8, 0x72#8, 0x74#8, 0x2D#8, 0x4E#8, 0x65#8, 0x74#8, 0x00#8, 0x00#8, 0x60#8] ++ List.replicate 96 0x00#8 ++ [c]

theorem test_decode_cancel_merge :
    decodeCommand ⟨107, ip 9#8, commandKey 0x01#8⟩ = .ok (.artAddressCancelMerge (ip 9#8) (List.replicate 96 0x00#8) []) := by
  decide +kernel

theorem test_decode_clear_buffer :
    decodeCommand ⟨107, ip 9#8, commandKey 0x90#8⟩ = .ok (.artAddressClearBuffer (ip 9#8) (List.replicate 96 0x00#8) []) := by
  decide +kernel

theorem test_decode_no_command :
    decodeCommand ⟨107, ip 9#8, commandKey 0x02#8⟩
      = .ok (.artAddressNoCommand (ip 9#8) (List.replicate 96 0x00#8) 0x02#8 []) := by decide +kernel

/-- R88: the key bytes 0..9 of the emitted reply. -/
theorem test_decode_emitted :
    decodeEmitted (ip 5#8) [0x41#8, 0x72#8, 0x74#8, 0x2D#8, 0x4E#8, 0x65#8, 0x74#8, 0x00#8, 0x00#8, 0x21#8]
      = .ok (.artPollReplyEmitted (ip 5#8)) := by decide +kernel

theorem test_decode_rejects_by_name :
    decodeCommand ⟨10, 0, (commandKey 0#8).take 10⟩ = .error .noCommandByte
      ∧ decodeCommand ⟨1, 0, [0x41#8]⟩ = .error .notArtAddress ∧ decodeEmitted 0 [] = .error .notPollReply := by decide +kernel

/-- The numbers of spec/opcode_table.json. -/
theorem test_table_words :
    decodeTableWord 64 0x8000000000000000 = some (.ingest false)
      ∧ decodeTableWord 80 0x4172742D4E6574000020 = some (.artPoll 0 (List.replicate 97 0x00#8))
      ∧ decodeTableWord 88 0x4172742D4E657400006090
        = some (.artAddressClearBuffer 0 (List.replicate 96 0x00#8) [])
      ∧ decodeTableWord 8 0x00 = some (.notArtNet 0 (List.replicate 107 0x00#8)) := by decide +kernel

theorem test_fetch_word :
    (after (step (State.reset.withFetchWord 64 0x40000500000001FF))).out.read 5 = 0xFF#8
      ∧ (after (step (State.reset.withFetchWord 80 0x4172742D4E6574000050))).rxLen = 107 := by decide +kernel

/-! ## One step, with the values of spec/95_test_vectors.md -/

/-- V-DMX-11. -/
theorem test_dmx_address_match :
    let t := run (dmx 1#8 0x25#8 0x01#8 [7#8]) { State.reset with net := 1, subnet := 2, univ := 5 }
    t.result = true ∧ t.out.read 0 = 7#8 ∧ t.outSlots = 1 ∧ t.srcA = some (ip 1#8) := by decide +kernel

/-- V-HTP-2. -/
theorem test_dmx_merges :
    let t := run (dmx 2#8 0x00#8 0x00#8 [100#8, 100#8]) stateA
    t.srcB = some (ip 2#8) ∧ levels t.out 4 = [100#8, 200#8, 0#8, 50#8] ∧ t.outSlots = 4 ∧ t.slotsB = 2
      ∧ t.rdata = 1#32 := by decide +kernel

/-- V-DSP-3 and V-PR-1. -/
theorem test_poll_replies :
    let t := run (.ingestPoll (ip 5#8) 14#8 14) State.reset
    t.tx = [⟨ip 5#8, 6454#16, [0x41#8, 0x72#8, 0x74#8, 0x2D#8, 0x4E#8, 0x65#8, 0x74#8, 0x00#8, 0x00#8, 0x21#8, 0x00#8, 0x00#8,
      0x00#8, 0x00#8, 0x36#8, 0x19#8] ++ List.replicate 223 0x00#8⟩] ∧ t.result = false := by decide +kernel

/-- V-DSP-5: version bytes 01 00. -/
theorem test_poll_version_low_byte :
    (run (.ingestRaw (ip 5#8) [0x41#8, 0x72#8, 0x74#8, 0x2D#8, 0x4E#8, 0x65#8, 0x74#8, 0x00#8, 0x00#8, 0x20#8, 0x01#8, 0x00#8,
      0x00#8, 0x00#8]) State.reset).tx = [] := by decide +kernel

/-- V-ADR-5. -/
theorem test_address_fields :
    let t := run (addr 0x83#8 0x80#8 0x8F#8 0x02#8) { State.reset with subnet := 1, univ := 1 }
    t.pa = 0x03F0#15 ∧ t.result = false ∧ t.tx.length = 1 ∧ t.tpl.read 190 = 0xF0#8 := by decide +kernel

/-- V-DSP-7: one byte short. -/
theorem test_address_short :
    let t := run (.ingestRaw (ip 7#8) ((AddrLine.packet { sender := 0, uni := 0x85#8 }).take 106)) State.reset
    t.univ = 0 ∧ t.tx = [] ∧ t.rxLen = 106 := by decide +kernel

/-- V-DSP-1. -/
theorem test_reply_received :
    let t := run (.ingestRaw (ip 5#8) [0x41#8, 0x72#8, 0x74#8, 0x2D#8, 0x4E#8, 0x65#8, 0x74#8, 0x00#8, 0x00#8, 0x21#8, 0x00#8,
      0x0E#8]) stateA
    t.result = false ∧ t.tx = [] ∧ t.out = stateA.out := by decide +kernel

/-- V-VAL-6. -/
theorem test_unknown_opcode :
    let t := run (.ingestRaw (ip 1#8) [0x41#8, 0x72#8, 0x74#8, 0x2D#8, 0x4E#8, 0x65#8, 0x74#8, 0x00#8, 0x50#8, 0x00#8, 0x00#8,
      0x0E#8, 0x00#8, 0x00#8, 0x00#8, 0x00#8, 0x00#8, 0x01#8, 0xFF#8]) State.reset
    t.result = false ∧ t.out.read 0 = 0#8 ∧ t.rxLen = 19 := by decide +kernel

/-- V-VAL-2. -/
theorem test_not_artnet :
    let t := run (.ingestRaw (ip 1#8) [0x41#8, 0x72#8, 0x74#8, 0x2D#8, 0x4E#8, 0x65#8, 0x74#8, 0x00#8, 0x00#8]) State.reset
    t.result = false ∧ t.rxLen = 9 := by decide +kernel

/-- V-MC-1. -/
theorem test_cancel_merge :
    let t := after (exec (.artAddressCancelMerge (ip 9#8) (addrFront 14#8) []) stateAB)
    t.srcA = none ∧ t.srcB = none ∧ levels t.out 4 = [100#8, 200#8, 0#8, 50#8] ∧ (t.slotsA, t.slotsB, t.outSlots) = (4, 2, 4)
      ∧ t.result = false ∧ t.tx.map (·.dest) = [ip 9#8] := by decide +kernel

/-- V-MC-3. -/
theorem test_clear_buffer :
    let t := after (exec (.artAddressClearBuffer (ip 9#8) (addrFront 14#8) []) stateAB)
    t.srcA = none ∧ t.srcB = some (ip 2#8) ∧ t.out = [] ∧ t.outSlots = 512 ∧ levels t.b 2 = [100#8, 100#8] ∧ t.slotsB = 2
      ∧ t.result = true := by decide +kernel

/-- V-ADR-5 (an unknown command) in HTP mode with two sources. -/
theorem test_no_command :
    let t := after (exec (.artAddressNoCommand (ip 7#8) (addrFront 14#8) 0x02#8 []) stateAB)
    t.srcA = stateAB.srcA ∧ t.srcB = stateAB.srcB ∧ t.out = stateAB.out ∧ t.result = false ∧ t.tx.length = 1 := by
  decide +kernel

/-- V-PR-2 and V-PR-3. -/
theorem test_reply_emitted :
    let t := after (exec (.artPollReplyEmitted (ip 5#8))
      { State.reset with net := 1, subnet := 2, univ := 5, bcastEn := true, bcastIp := 0x0A0000FF#32 })
    t.tx.map (fun r => (r.dest, r.port, r.bytes.length, r.bytes.getD 190 0#8, r.bytes.getD 18 0#8))
      = [(0x0A0000FF#32, 6454#16, 239, 0x25#8, 0#8)] ∧ t.tpl.read 190 = 0x25#8 := by decide +kernel

/-- V-HOST-12. -/
theorem test_nop : runWord 0x0000000000000000#64 stateAB = stateAB := by decide +kernel

/-- V-HOST-1. -/
theorem test_csrr :
    (runWord 0x1000010000000000#64 { State.reset with net := 1, subnet := 2, univ := 5 }).rdata = 0x00000125#32 := by
  decide +kernel

/-- V-HOST-2. -/
theorem test_csrw_port_addr :
    let t := runWord 0x20000100FFFFFFFF#64 State.reset
    t.pa = 0x7FFF#15 ∧ t.rdata = 0 := by decide +kernel

/-- V-MC-5: enable. -/
theorem test_csrw_enable :
    let t := run .enablehtp { stateS with result := true }
    t.htpEn = true ∧ t.out = [] ∧ t.outSlots = 0 ∧ t.srcA = none ∧ t.result = true := by decide +kernel

/-- V-HOST-6. -/
theorem test_outr_beyond : (runWord 0x3002000000000000#64 { State.reset with out := [(511, 7#8)] }).rdata = 0 := by
  decide +kernel
theorem test_outr : (runWord 0x3000010000000000#64 stateA).rdata = 200#32 := by decide +kernel

/-- V-HOST-5. -/
theorem test_outw : (runWord 0x40000300000001FF#64 State.reset).out.read 3 = 0xFF#8 := by decide +kernel
/-- V-HOST-6. -/
theorem test_outw_beyond : (runWord 0x4002000000000012#64 State.reset).out = [] := by decide +kernel

/-- V-HOST-7. -/
theorem test_tplr : (runWord 0x5000090000000000#64 State.reset).rdata = 0x21#32
    ∧ (runWord 0x5000EF0000000000#64 State.reset).rdata = 0 := by decide +kernel

/-- V-PR-6. -/
theorem test_tplw : (runWord 0x60001A000000004C#64 State.reset).tpl.read 26 = 0x4C#8
    ∧ (runWord 0x6000BE0000000077#64 State.reset).tpl.read 190 = 0#8
    ∧ (runWord 0x6000000000000000#64 State.reset).tpl.read 0 = 0x41#8 := by decide +kernel

/-- V-HOST-9: beyond `RX_LEN`. -/
theorem test_rxr :
    let s := { State.reset with rx := [(9, 0x60#8), (107, 5#8)], rxLen := 107 }
    (runWord 0x7000090000000000#64 s).rdata = 0x60#32 ∧ (runWord 0x70006B0000000000#64 s).rdata = 0 := by decide +kernel

/-- V-DSP-9. -/
theorem test_ingest_none :
    let t := run .ingestNone { stateS with result := true, rxLen := 19 }
    t.result = false ∧ t.rxLen = 19 ∧ t.out = stateS.out := by decide +kernel

/-- R252(b). -/
theorem test_ingest_bad_len :
    refusal (step (issue 0x8000000000000001#64 [⟨3, ip 1#8, [0x41#8]⟩] State.reset)) = some .hostViolation := by
  decide +kernel

/-- V-HOST-11. -/
theorem test_reserved_ops :
    [0x9000000000000000#64, 0xA000000000000000#64, 0xB000000000000000#64, 0xC000000000000000#64, 0xD000000000000000#64,
      0xE000000000000000#64, 0xF000000000000000#64].map (fun w => runWord w { stateAB with rdata := 7 })
      = List.replicate 7 stateAB := by decide +kernel

/-! ## The hypotheses of the obligations are met -/

/-- A legal state: HTP mode, both sources bound. -/
theorem legal_stateAB : stateAB.Inv := by
  refine ⟨by decide +kernel, by decide +kernel, by decide +kernel, Nat.zero_le _, by simp [stateAB, stateA], by simp [stateAB, stateA],
    fun _ _ => rfl, by decide +kernel, ?_, ?_, ?_, ?_, ?_⟩
  all_goals exact ⟨by decide +kernel, by decide +kernel⟩

/-- A legal state: single-source mode, a sender bound. -/
theorem legal_stateS : stateS.Inv := by
  refine ⟨by decide +kernel, by decide +kernel, by decide +kernel, Nat.zero_le _, fun _ => rfl, fun _ => rfl, fun _ _ => rfl, by decide +kernel, ?_, ?_, ?_,
    ?_, ?_⟩
  all_goals exact ⟨by decide +kernel, by decide +kernel⟩

/-- An accepted frame of two slots for any state whose port-address is 0. -/
theorem fits_two {s : State} (h : s.paLoNat = 0) (hn : s.net = 0) : FrameFits (dmxBody 0#8 0#8 [7#8, 8#8]) s :=
  ⟨fits_small (by decide +kernel), by decide +kernel, by rw [h]; decide +kernel, by rw [hn]; decide +kernel, by decide +kernel, by decide +kernel⟩

/-- The boundaries of acceptance: no slot in 18 bytes, and 512 slots in 530 bytes. -/
theorem fits_bounds {s : State} (h : s.paLoNat = 0) (hn : s.net = 0) :
    FrameFits (dmxBody 0#8 0#8 []) s ∧ FrameFits (dmxBody 0#8 0#8 (List.replicate 512 9#8)) s :=
  ⟨⟨fits_small (by decide +kernel), by decide +kernel, by rw [h]; decide +kernel, by rw [hn]; decide +kernel, by decide +kernel, by decide +kernel⟩,
    ⟨fits_small (by decide +kernel), by decide +kernel, by rw [h]; decide +kernel, by rw [hn]; decide +kernel,
      by decide +kernel, by decide +kernel⟩⟩

/-- An ArtAddress body of the least length, version 14, with a command. -/
theorem accepted (c : Byte) : AddressAccepted (addrFront 14#8 ++ c :: []) := by
  have hl : (addrFront 14#8 ++ c :: []).length = 97 := by
    rw [List.length_append, show (addrFront 14#8).length = 96 by decide +kernel]
    rfl
  refine ⟨by rw [hl]; exact fits_small (by decide +kernel), by rw [hl], ?_⟩
  show 14 ≤ (bodyByte (addrFront 14#8 ++ c :: []) 11).toNat
  have : bodyByte (addrFront 14#8 ++ c :: []) 11 = 14#8 := by
    rw [bodyByte, List.getD_eq_getElem?_getD, List.getElem?_append_left (by decide +kernel)]
    decide +kernel
  rw [this]
  decide +kernel

theorem witness_StepKeepsLegality :
    (issue 0x20000100FFFFFFFF#64 [] stateAB).Inv ∧ isNext (step (issue 0x20000100FFFFFFFF#64 [] stateAB)) = true := by
  have h := legal_stateAB
  exact ⟨⟨h.1, h.2, h.3, h.4, h.5, h.6, h.7, h.8, h.9, h.10, h.11, h.12, h.13⟩, by decide +kernel⟩

theorem witness_StepRunsTheNextHostOperation :
    (issue 0x3000010000000000#64 [] stateA).hostOps = 0x3000010000000000#64 :: []
      ∧ (Instr.outRead 1#16).wellFormed = true ∧ encode (.outRead 1#16) = .host64 0x3000010000000000#64
      ∧ stateA.hostOps = [] := by decide +kernel

theorem witness_StepStopsOnlyOnALengthMismatch :
    isNext (step (issue 0x8000000000000001#64 [⟨1, ip 1#8, [0x41#8]⟩] State.reset)) = true
      ∧ refusal (step (issue 0x8000000000000001#64 [⟨0, ip 1#8, [0x41#8]⟩] State.reset)) = some .hostViolation := by
  decide +kernel

theorem witness_DecodeReadsBackEveryEncoding :
    (Instr.artDMX (ip 1#8) [0x00#8]).wellFormed = true
      ∧ encode (.artDMX (ip 1#8) [0x00#8]) = .artnetDatagram (datagramOf (ip 1#8) (packet 0x5000#16 [0x00#8]))
      ∧ (Instr.artAddressCancelMerge (ip 1#8) (addrFront 14#8) []).wellFormed = true
      ∧ encode (.artAddressCancelMerge (ip 1#8) (addrFront 14#8) [])
        = .artAddressCommand (datagramOf (ip 1#8) (addressPacket (addrFront 14#8) 0x01#8 [])) := by decide +kernel

theorem witness_ReservedHostEncodingsAreIgnored :
    0x1F0001FF00000000#64 &&& 0xF0FFFF00FFFFFFFF#64 = 0x1000010000000000#64 &&& 0xF0FFFF00FFFFFFFF#64
      ∧ 0x40000500000001FF#64 >>> 60 = 4#64 ∧ 0x60000500000001FF#64 >>> 60 = 6#64
      ∧ 0x40000500000001FF#64 &&& 0xF0FFFF00000000FF#64 = 0x40000500FFFFFFFF#64 &&& 0xF0FFFF00000000FF#64
      ∧ 0x8000000000000003#64 >>> 60 = 8#64
      ∧ 0x8000000000000003#64 &&& 0xF0FFFF0000000001#64 = 0x8000000000000001#64 &&& 0xF0FFFF0000000001#64
      ∧ 9#64 ≤ 0x9000000000000000#64 >>> 60 ∧ 9#64 ≤ 0xF000000000000000#64 >>> 60 := by decide +kernel

theorem witness_CtrlRegister :
    (0x00000002#32).getLsbD 0 = false ∧ stateA.htpEn = true ∧ (0x00000001#32).getLsbD 0 = true ∧ stateS.htpEn = false := by
  decide +kernel

theorem witness_EnableStartsAFreshMerge : stateS.htpEn = false ∧ stateA.htpEn = true := by decide +kernel

theorem witness_BcastIpRegister : ({ State.reset with bcastEn := true } : State).bcastEn = true := by decide +kernel

theorem witness_NumSlotsRegister :
    (512#32).toNat ≤ 512 ∧ 512 < (513#32).toNat ∧ 512 < (0xFFFFFFFF#32).toNat ∧ stateAB.Inv :=
  ⟨by decide +kernel, by decide +kernel, by decide +kernel, legal_stateAB⟩

theorem witness_ReadOnlyRegisters : stateAB.Inv := legal_stateAB

theorem witness_ReservedRegistersAreInert : 7 ≤ (0x0007#16).toNat ∧ 7 ≤ (0xFFFF#16).toNat ∧ stateAB.Inv :=
  ⟨by decide +kernel, by decide +kernel, legal_stateAB⟩

theorem witness_OutReadAndOutWriteLevels :
    (0#16).toNat < 512 ∧ (511#16).toNat < 512 ∧ 512 ≤ (512#16).toNat ∧ 512 ≤ (0xFFFF#16).toNat := by decide +kernel

theorem witness_TplReadGivesTheTemplateByte : (238#16).toNat < 239 ∧ 239 ≤ (239#16).toNat := by decide +kernel

/-- The offsets where the clauses meet: 15 and 16, 189 to 191, 238 and 239. -/
theorem witness_TplWriteStoresAtHostOwnedOffsetsOnly :
    [16#16, 189#16, 191#16, 238#16].all (fun i => 16 ≤ i.toNat ∧ i.toNat < 239 ∧ i.toNat ≠ 190) = true
      ∧ [0#16, 15#16, 190#16, 239#16, 0xFFFF#16].all (fun i => i.toNat < 16 ∨ 239 ≤ i.toNat ∨ i.toNat = 190) = true := by
  decide +kernel

theorem witness_RxReadGivesTheDatagramByte :
    let s := { State.reset with rx := [(9, 0x60#8)], rxLen := 10 }
    (9#16).toNat < s.rxLen ∧ s.rxLen ≤ (10#16).toNat := by decide +kernel

theorem witness_NopAndReservedOperationsDoNothing :
    Instr.nop ∈ [Instr.nop, .reservedOp9, .reservedOpA, .reservedOpB, .reservedOpC, .reservedOpD, .reservedOpE, .reservedOpF]
      ∧ Instr.reservedOpF
        ∈ [Instr.nop, .reservedOp9, .reservedOpA, .reservedOpB, .reservedOpC, .reservedOpD, .reservedOpE, .reservedOpF] := by
  decide +kernel

theorem witness_WritesAreSeenByTheNextOperation :
    (∃ t u, (511#16).toNat < 512 ∧ exec (.outWrite 511#16 9#8) State.reset = .next t ∧ exec (.outRead 511#16) t = .next u)
      ∧ (∃ t, exec (.csrWrite 0x01#16 0x0001#32) State.reset = .next t
          ∧ 10 + (dmxBody 0#8 0#8 [7#8]).length ≤ Config.rxCap
          ∧ (bodyByte (dmxBody 0#8 0#8 [7#8]) 14).toNat + 256 * (bodyByte (dmxBody 0#8 0#8 [7#8]) 15).toNat
            ≠ (0x0001#32).toNat % 2 ^ 15)
      ∧ ∃ t u, exec (.tplWrite 26#16 0x4C#8) State.reset = .next t ∧ exec (.artPollReplyEmitted (ip 5#8)) t = .next u :=
  ⟨⟨_, _, by decide +kernel, next_of_isNext (by decide +kernel), next_of_isNext (by decide +kernel)⟩,
    ⟨_, next_of_isNext (by decide +kernel), fits_small (by decide +kernel), by decide +kernel⟩, _, _,
    next_of_isNext (by decide +kernel), next_of_isNext (by decide +kernel)⟩

theorem witness_IngestAtAnEmptyPort : stateAB.port = [] := by decide +kernel

theorem witness_OversizeDatagramIsDroppedWhole :
    Config.rxCap < (⟨0, ip 1#8, List.replicate 65536 0#8⟩ : Datagram).bytes.length := by
  have hc : Config.rxCap ≤ 65535 := by
    have := Config.rxCapAbove.isLt
    unfold Config.rxCap
    omega
  rw [List.length_replicate]
  exact Nat.lt_succ_of_le hc

/-- A datagram of 530 bytes, the longest that every capacity takes, at the port, its `LEN` right. -/
theorem witness_IngestCapturesTheDatagram :
    let d := datagramOf (ip 1#8) (packet 0x5000#16 (dmxBody 0#8 0#8 (List.replicate 512 9#8)))
    let s := { stateAB with port := [d] }
    s.port = d :: [] ∧ d.len.toNat = d.bytes.length ∧ d.bytes.length ≤ Config.rxCap :=
  ⟨rfl, by decide +kernel, fits_small (by decide +kernel)⟩

theorem witness_IngestRunsTheRowOfItsDatagram :
    let d := datagramOf (ip 1#8) [0x41#8]
    ({ stateAB with port := [d] } : State).port = d :: [] ∧ d.len.toNat = d.bytes.length := by decide +kernel

theorem witness_CommandRowsAgreeWithArtAddress :
    decodeCommand ⟨107, ip 9#8, commandKey 0x90#8⟩ = .ok (.artAddressClearBuffer (ip 9#8) (List.replicate 96 0x00#8) []) :=
  test_decode_clear_buffer

/-- An accepted frame, an answered poll, a drop. -/
theorem witness_ResultIsOneExactlyForTheChangedVerdicts :
    isNext (exec (.ingest true) (stateA.withLine (dmx 2#8 0#8 0#8 [7#8]))) = true
      ∧ ingestVerdict true (stateA.withLine (dmx 2#8 0#8 0#8 [7#8])) = .dmxAcceptedB
      ∧ ingestVerdict true (stateA.withLine (.ingestPoll (ip 5#8) 14#8 14)) = .pollReplied
      ∧ ingestVerdict true (stateAB.withLine (dmx 3#8 0#8 0#8 [7#8])) = .dmxDroppedSender
      ∧ ingestVerdict false stateA = .noDatagram := by decide +kernel

/-- Each verdict that the clauses name but `Oversize`. -/
theorem witness_SilentDropsChangeNothingButTheCapture :
    ingestVerdict true (stateAB.withLine (.ingestRaw (ip 1#8) [])) = .notArtNet
      ∧ ingestVerdict true (stateAB.withLine (dmx 3#8 1#8 0#8 [7#8])) = .dmxAddrMismatch
      ∧ ingestVerdict true (stateAB.withLine (.ingestPoll (ip 5#8) 14#8 14)) = .pollReplied
      ∧ ingestVerdict true (stateAB.withLine (.ingestPoll (ip 5#8) 14#8 13)) = .pollRejected
      ∧ ingestVerdict true (stateAB.withLine (addr 0#8 0x7F#8 0x7F#8 0x00#8)) = .addressApplied
      ∧ ingestVerdict true (stateAB.withLine (addr 0#8 0x7F#8 0x7F#8 0x90#8)) = .addressCleared
      ∧ (stateAB.withLine (.ingestRaw (ip 1#8) [])).port = datagramOf (ip 1#8) [] :: []
      ∧ (datagramOf (ip 1#8) []).len.toNat = (datagramOf (ip 1#8) []).bytes.length := by decide +kernel

/-- `Oversize` needs a capacity below 65535, which the spec leaves open (entry 1): then 65535 bytes are one. -/
theorem witness_SilentDropsChangeNothingButTheCapture_oversize (h : Config.rxCap < 65535) :
    let d : Datagram := ⟨65535#16, ip 1#8, List.replicate 65535 0#8⟩
    ingestVerdict true { stateAB with port := [d] } = .oversize ∧ d.len.toNat = d.bytes.length := by
  refine ⟨?_, by simp only [List.length_replicate]; decide +kernel⟩
  rw [ingestVerdict_present rfl, if_pos (by simpa only [List.length_replicate] using h)]

theorem witness_OtherOpcodesAreNoOps :
    let body := [0x00#8, 0x0E#8]
    10 + body.length ≤ Config.rxCap ∧ (0x2101#16 ≠ 0x5000#16 ∧ 0x2101#16 ≠ 0x2000#16 ∧ 0x2101#16 ≠ 0x6000#16)
      ∧ ({ stateAB with port := [datagramOf (ip 1#8) (packet 0x2101#16 body)] } : State).port
        = datagramOf (ip 1#8) (packet 0x2101#16 body) :: [] :=
  ⟨fits_small (by decide +kernel), by decide +kernel, rfl⟩

/-- Nine bytes that are the magic and one more, and ten bytes with another eighth byte. -/
theorem witness_NotArtNetIsANoOp :
    let short := [0x41#8, 0x72#8, 0x74#8, 0x2D#8, 0x4E#8, 0x65#8, 0x74#8, 0x00#8, 0x00#8]
    let other := [0x41#8, 0x72#8, 0x74#8, 0x2D#8, 0x4E#8, 0x65#8, 0x74#8, 0x20#8, 0x00#8, 0x50#8]
    short.length ≤ Config.rxCap ∧ short.length < 10 ∧ other.length ≤ Config.rxCap ∧ other.take 8 ≠ Config.magic
      ∧ ({ stateAB with port := [datagramOf (ip 1#8) short] } : State).port = datagramOf (ip 1#8) short :: [] :=
  ⟨fits_small (by decide +kernel), by decide +kernel, fits_small (by decide +kernel), by decide +kernel, rfl⟩

/-- Two receive buffers that agree below `RX_LEN` and differ at it, and a step from the first. -/
theorem witness_StaleReceiveBytesAreNeverObserved :
    let s := { (stateAB.withLine (.ingestRaw (ip 1#8) [0x41#8])) with rx := [(0, 1#8), (2, 3#8)], rxLen := 2 }
    (∀ i, i < s.rxLen → Memory.read [(0, 1#8), (2, 4#8)] i = s.rx.read i)
      ∧ Memory.read [(0, 1#8), (2, 4#8)] 2 ≠ s.rx.read 2 ∧ isNext (step s) = true := by decide +kernel

theorem witness_SingleSourceFrameIsCopied :
    FrameFits (dmxBody 0#8 0#8 [7#8, 8#8]) State.reset ∧ State.reset.htpEn = false ∧ State.reset.srcA = none
      ∧ FrameFits (dmxBody 0#8 0#8 [7#8, 8#8]) stateS ∧ stateS.htpEn = false ∧ stateS.srcA = some (ip 1#8)
      ∧ FrameFits (dmxBody 0#8 0#8 []) stateS ∧ FrameFits (dmxBody 0#8 0#8 (List.replicate 512 9#8)) stateS :=
  ⟨fits_two rfl rfl, rfl, rfl, fits_two rfl rfl, rfl, rfl, (fits_bounds rfl rfl).1, (fits_bounds rfl rfl).2⟩

theorem witness_SourceAFrameIsMerged :
    FrameFits (dmxBody 0#8 0#8 [7#8, 8#8]) stateAB ∧ stateAB.htpEn = true ∧ stateAB.srcA = some (ip 1#8)
      ∧ FrameFits (dmxBody 0#8 0#8 [7#8, 8#8]) stateB ∧ stateB.htpEn = true ∧ stateB.srcA = none
      ∧ FrameFits (dmxBody 0#8 0#8 []) stateB ∧ FrameFits (dmxBody 0#8 0#8 (List.replicate 512 9#8)) stateB :=
  ⟨fits_two rfl rfl, rfl, rfl, fits_two rfl rfl, rfl, rfl, (fits_bounds rfl rfl).1, (fits_bounds rfl rfl).2⟩

theorem witness_SourceBFrameIsMerged :
    FrameFits (dmxBody 0#8 0#8 [7#8, 8#8]) stateA ∧ stateA.htpEn = true ∧ stateA.srcA = some (ip 1#8) ∧ ip 1#8 ≠ ip 2#8
      ∧ stateA.srcB = none
      ∧ FrameFits (dmxBody 0#8 0#8 [7#8, 8#8]) stateAB ∧ stateAB.srcA = some (ip 1#8) ∧ stateAB.srcB = some (ip 2#8) :=
  ⟨fits_two rfl rfl, rfl, rfl, by decide +kernel, rfl, fits_two rfl rfl, rfl, rfl⟩

theorem witness_OtherSendersAreDropped :
    FrameFits (dmxBody 0#8 0#8 [7#8, 8#8]) stateAB ∧ stateAB.srcA = some (ip 1#8) ∧ ip 1#8 ≠ ip 3#8 ∧ stateAB.htpEn = true
      ∧ stateAB.srcB = some (ip 2#8) ∧ ip 2#8 ≠ ip 3#8
      ∧ FrameFits (dmxBody 0#8 0#8 [7#8, 8#8]) stateS ∧ stateS.srcA = some (ip 1#8) ∧ stateS.htpEn = false :=
  ⟨fits_two rfl rfl, rfl, by decide +kernel, rfl, rfl, by decide +kernel, fits_two rfl rfl, rfl, rfl⟩

/-- One packet for each reason: 17 bytes, another low byte, another net, three levels of four announced, 513 slots. -/
theorem witness_RejectedFramesChangeNothing :
    (10 + ((dmxBody 0#8 0#8 []).take 7).length ≤ Config.rxCap ∧ 10 + ((dmxBody 0#8 0#8 []).take 7).length < 18)
      ∧ (10 + (dmxBody 1#8 0#8 [7#8]).length ≤ Config.rxCap ∧ (bodyByte (dmxBody 1#8 0#8 [7#8]) 14).toNat ≠ stateA.paLoNat)
      ∧ (10 + (dmxBody 0#8 0x80#8 [7#8]).length ≤ Config.rxCap
          ∧ (bodyByte (dmxBody 0#8 0x80#8 [7#8]) 15).toNat ≠ stateA.net.toNat)
      ∧ (10 + ((dmxBody 0#8 0#8 [1#8, 2#8, 3#8, 4#8]).take 11).length ≤ Config.rxCap
          ∧ 10 + ((dmxBody 0#8 0#8 [1#8, 2#8, 3#8, 4#8]).take 11).length
            < 18 + bodySlots ((dmxBody 0#8 0#8 [1#8, 2#8, 3#8, 4#8]).take 11))
      ∧ (10 + ((dmxBody 0#8 0#8 (List.replicate 513 1#8)).take 100).length ≤ Config.rxCap
          ∧ 512 < bodySlots ((dmxBody 0#8 0#8 (List.replicate 513 1#8)).take 100)) :=
  ⟨⟨fits_small (by decide +kernel), by decide +kernel⟩, ⟨fits_small (by decide +kernel), by decide +kernel⟩, ⟨fits_small (by decide +kernel), by decide +kernel⟩,
    ⟨fits_small (by decide +kernel), by decide +kernel⟩, fits_small (by decide +kernel), by decide +kernel⟩

theorem witness_AcceptedFramesLeaveTheMaximum :
    stateAB.Inv ∧ (stateAB.withLine (dmx 1#8 0#8 0#8 [7#8])).Inv
      ∧ ingestVerdict true (stateAB.withLine (dmx 1#8 0#8 0#8 [7#8])) = .dmxAcceptedA
      ∧ ingestVerdict true (stateAB.withLine (dmx 2#8 0#8 0#8 [7#8])) = .dmxAcceptedB
      ∧ ingestVerdict true (stateS.withLine (dmx 1#8 0#8 0#8 [7#8])) = .dmxAcceptedSingle ∧ stateS.Inv
      ∧ (stateAB.withLine (dmx 1#8 0#8 0#8 [7#8])).port
        = datagramOf (ip 1#8) (packet 0x5000#16 (dmxBody 0#8 0#8 [7#8])) :: [] := by
  have h := legal_stateAB
  exact ⟨h, ⟨h.1, h.2, h.3, h.4, h.5, h.6, h.7, h.8, h.9, h.10, h.11, h.12, h.13⟩, by decide +kernel, by decide +kernel,
    by decide +kernel, legal_stateS, by decide +kernel⟩

/-- The two commands and another, each in an accepted packet. -/
theorem witness_ArtAddressIsCarriedOut :
    (AddressAccepted (addrFront 14#8 ++ [0x01#8]) ∧ bodyByte (addrFront 14#8 ++ [0x01#8]) 106 = 0x01#8)
      ∧ (AddressAccepted (addrFront 14#8 ++ [0x90#8]) ∧ bodyByte (addrFront 14#8 ++ [0x90#8]) 106 = 0x90#8)
      ∧ AddressAccepted (addrFront 14#8 ++ [0x91#8]) ∧ bodyByte (addrFront 14#8 ++ [0x91#8]) 106 ≠ 0x01#8
      ∧ bodyByte (addrFront 14#8 ++ [0x91#8]) 106 ≠ 0x90#8 :=
  ⟨⟨accepted _, by decide +kernel⟩, ⟨accepted _, by decide +kernel⟩, accepted _, by decide +kernel, by decide +kernel⟩

theorem witness_NoCommandChangesNoMergeState :
    (addrFront 14#8).length = 96 ∧ AddressAccepted (addrFront 14#8 ++ 0x02#8 :: []) ∧ 0x02#8 ≠ 0x01#8 ∧ 0x02#8 ≠ 0x90#8 :=
  ⟨by decide +kernel, accepted _, by decide +kernel, by decide +kernel⟩

theorem witness_CancelMergeUnbindsBothSources :
    (addrFront 14#8).length = 96 ∧ AddressAccepted (addrFront 14#8 ++ 0x01#8 :: []) := ⟨by decide +kernel, accepted _⟩

theorem witness_ClearBufferBlacksOut :
    (addrFront 14#8).length = 96 ∧ AddressAccepted (addrFront 14#8 ++ 0x90#8 :: []) := ⟨by decide +kernel, accepted _⟩

/-- 106 bytes; version 13 in 107 bytes, for the row and for the command rows. -/
theorem witness_RejectedArtAddressChangesNothing :
    (10 + (addrFront 14#8).length ≤ Config.rxCap ∧ 10 + (addrFront 14#8).length < 107)
      ∧ (10 + (addrBody 13#8 0#8).length ≤ Config.rxCap ∧ (bodyByte (addrBody 13#8 0#8) 11).toNat < 14)
      ∧ (addrFront 13#8).length = 96 ∧ 107 + ([] : List Byte).length ≤ Config.rxCap
      ∧ (bodyByte (addrFront 13#8) 11).toNat < 14 :=
  ⟨⟨fits_small (by decide +kernel), by decide +kernel⟩, ⟨fits_small (by decide +kernel), by decide +kernel⟩, by decide +kernel, fits_small (by decide +kernel), by decide +kernel⟩

theorem witness_ArtPollIsAnswered :
    let body := [0x00#8, 0x0E#8, 0x00#8, 0x00#8]
    10 + body.length ≤ Config.rxCap ∧ 14 ≤ 10 + body.length ∧ 14 ≤ (bodyByte body 11).toNat :=
  ⟨fits_small (by decide +kernel), by decide +kernel, by decide +kernel⟩

theorem witness_RejectedArtPollChangesNothing :
    let short := [0x00#8, 0x0E#8, 0x00#8]
    let old := [0x00#8, 0x0D#8, 0x00#8, 0x00#8]
    (10 + short.length ≤ Config.rxCap ∧ 10 + short.length < 14)
      ∧ 10 + old.length ≤ Config.rxCap ∧ (bodyByte old 11).toNat < 14 :=
  ⟨⟨fits_small (by decide +kernel), by decide +kernel⟩, fits_small (by decide +kernel), by decide +kernel⟩

theorem witness_ReplyBytesFollowTheLayout :
    stateAB.Inv ∧ ∃ t, exec (.artPollReplyEmitted (ip 5#8)) stateAB = .next t := ⟨legal_stateAB, _, next_of_isNext (by decide +kernel)⟩

theorem witness_OneTransmitRequestPerIngest :
    let s := stateAB.withLine (.ingestPoll (ip 5#8) 14#8 14)
    isNext (step s) = true ∧ (after (step s)).tx ≠ s.tx := by decide +kernel

/-- A word that is no `INGEST`, and an `INGEST` that answers a next state. -/
theorem witness_OnlyIngestWritesResult :
    (issue 0#64 [] stateAB).hostOps = 0#64 :: [] ∧ decodeWord 0#64 = .nop ∧ isNext (step (issue 0#64 [] stateAB)) = true
      ∧ isNext (exec (.ingest false) stateAB) = true := by decide +kernel

theorem witness_HtpEnableIsOneWay :
    let s := stateS.withLine .enablehtp
    s.htpEn = false ∧ (after (step s)).htpEn = true ∧ isNext (step s) = true ∧ stateA.htpEn = true := by decide +kernel

theorem witness_AddressModelHasTwoWriters :
    let s := State.reset.withLine (.setpa 0 0 1)
    isNext (step s) = true
      ∧ ¬((after (step s)).net = s.net ∧ (after (step s)).subnet = s.subnet ∧ (after (step s)).univ = s.univ) := by
  decide +kernel

theorem witness_TemplateBytesHaveOneWriter :
    let s := State.reset.withLine (.tplw 26#16 0x4C#32)
    isNext (step s) = true ∧ (after (step s)).tpl.read 26 ≠ s.tpl.read 26 := by decide +kernel

/-- A cancel-merge unbinds both sources. -/
theorem witness_BoundSourcesStayBound :
    let s := stateAB.withLine (.cancelmerge (ip 9#8))
    isNext (step s) = true ∧ s.srcA = some (ip 1#8) ∧ (after (step s)).srcA ≠ some (ip 1#8) ∧ s.srcB = some (ip 2#8)
      ∧ (after (step s)).srcB ≠ some (ip 2#8) := by decide +kernel

theorem witness_CancelMergeReseedsSourceA :
    ∃ t, exec (.artAddressCancelMerge (ip 9#8) (addrFront 14#8) []) stateAB = .next t
      ∧ (addrFront 14#8).length = 96 ∧ AddressAccepted (addrFront 14#8 ++ 0x01#8 :: [])
      ∧ FrameFits (dmxBody 0#8 0#8 [7#8, 8#8]) t :=
  ⟨_, next_of_isNext (by decide +kernel), by decide +kernel, accepted _, fits_two (by decide +kernel) (by decide +kernel)⟩

/-- `SLOTS_B` is 2 and the frame has one slot, so that level 1 is stale. -/
theorem witness_StaleLevelsReturnAfterClearBuffer :
    stateAB.Inv ∧ stateAB.htpEn = true ∧ (addrFront 14#8).length = 96 ∧ AddressAccepted (addrFront 14#8 ++ 0x90#8 :: [])
      ∧ ∃ t, exec (.artAddressClearBuffer (ip 9#8) (addrFront 14#8) []) stateAB = .next t
        ∧ FrameFits (dmxBody 0#8 0#8 []) t ∧ bodySlots (dmxBody 0#8 0#8 []) < stateAB.slotsB :=
  ⟨legal_stateAB, rfl, by decide +kernel, accepted _, _, next_of_isNext (by decide +kernel), (fits_bounds (by decide +kernel) (by decide +kernel)).1,
    by decide +kernel⟩

theorem witness_OneAddressInBothSlots :
    stateB.mergeState = .bOnly ∧ stateB.htpEn = true ∧ stateB.srcB = some (ip 2#8)
      ∧ FrameFits (dmxBody 0#8 0#8 [7#8, 8#8]) stateB ∧ ip 3#8 ≠ ip 2#8
      ∧ FrameFits (dmxBody 0#8 0#8 [7#8, 8#8]) (run (dmx 2#8 0#8 0#8 [7#8, 8#8]) stateB) :=
  ⟨rfl, rfl, rfl, fits_two rfl rfl, by decide +kernel, fits_two (by decide +kernel) (by decide +kernel)⟩

end Sys2Proof.Tests
end

section
/-! The range of the receive capacity (R6), which the model leaves open between its bounds. -/

namespace Sys2Proof.Config

/-- R6: every admitted capacity takes the longest ArtDMX packet of 512 slots. -/
theorem le_rxCap : 530 ≤ rxCap := by
  unfold rxCap
  exact Nat.le_add_left 530 rxCapAbove.val

/-- R6: the capacity fits the 16-bit length of a datagram; the type of `rxCapAbove` bounds it. -/
theorem rxCap_le : rxCap ≤ 65535 := by
  have habove : rxCapAbove.val < 65006 := rxCapAbove.isLt
  unfold rxCap
  omega

/-- Settles O3, by the two bounds. -/
theorem receiveCapacityIsInRange : Obligations.ReceiveCapacityIsInRange :=
  ⟨le_rxCap, rxCap_le⟩

end Sys2Proof.Config
end

section
/-! What one step can do, said once: the effects of a completed host operation, and the routes of a
captured packet. -/

namespace Sys2Proof.Machine

/-! ## The effects of a host operation -/

/-- The host-owned template offsets (R31, R225). -/
theorem hostOwned_iff {i : Nat} : hostOwned i = true ↔ i < 239 ∧ 16 ≤ i ∧ i ≠ 190 := by
  simp [hostOwned, and_assoc]

/-- What a completed host operation can have done to the state it ran in: the writes of the five writable CSRs and of the
two byte spaces, an `INGEST` with or without a datagram, and otherwise a read datum only (R220 to R229). -/
inductive HostEffect (s : State) : Instr → State → Prop where
  | quiet (i : Instr) (v : Word32) : HostEffect s i (answer v s)
  | ctrl (v : Word32) : HostEffect s (.csrWrite 0x00#16 v) (answer 0 (writeCtrl v s))
  | portAddr (v : Word32) : HostEffect s (.csrWrite 0x01#16 v) (answer 0 (writePortAddr v s))
  | nodeIp (v : Word32) : HostEffect s (.csrWrite 0x02#16 v) (answer 0 (writeNodeIp v s))
  | bcastIp (v : Word32) : HostEffect s (.csrWrite 0x03#16 v) (answer 0 (writeBcastIp v s))
  | numSlots (v : Word32) : HostEffect s (.csrWrite 0x04#16 v) (answer 0 (writeNumSlots v s))
  | outWrite (idx : Index) (byte : Byte) (hidx : idx.toNat < 512) :
      HostEffect s (.outWrite idx byte) (answer 0 { s with out := s.out.write idx.toNat byte })
  | tplWrite (idx : Index) (byte : Byte) (hidx : hostOwned idx.toNat = true) :
      HostEffect s (.tplWrite idx byte) (answer 0 { s with tpl := s.tpl.write idx.toNat byte })
  | noDatagram (present : Bool) : HostEffect s (.ingest present) (finish (false, s))
  | received (d : Datagram) (rest : List Datagram) (hport : s.port = d :: rest) :
      HostEffect s (.ingest true) (receive handle d.sender d.bytes { s with port := rest })

/-- An `INGEST` at an empty port (entry 6). -/
theorem execIngest_of_empty {s : State} (h : s.port = []) : execIngest true s = .next (finish (false, s)) := by
  simp only [execIngest, h]

/-- An `INGEST` at a port with a datagram (R95, R252). -/
theorem execIngest_of_cons {s : State} {d : Datagram} {rest : List Datagram} (h : s.port = d :: rest) :
    execIngest true s
      = if d.len.toNat = d.bytes.length then .next (receive handle d.sender d.bytes { s with port := rest })
        else .refused .hostViolation := by
  simp only [execIngest, h]

/-- A write of a CSR has the effect of the register it names (R221). -/
theorem hostEffect_csrWrite (s : State) (idx : Index) (v : Word32) :
    HostEffect s (.csrWrite idx v) (answer 0 (writeCsr idx v s)) := by
  rcases writeCsr_cases idx v s with ⟨rfl, h⟩ | ⟨rfl, h⟩ | ⟨rfl, h⟩ | ⟨rfl, h⟩ | ⟨rfl, h⟩ | ⟨_, h⟩ <;> rw [h]
  · exact .ctrl v
  · exact .portAddr v
  · exact .nodeIp v
  · exact .bcastIp v
  · exact .numSlots v
  · exact .quiet _ 0

/-- A completed `INGEST` found no datagram or received one (R120, R121). -/
theorem hostEffect_ingest {s t : State} {present : Bool} (h : execIngest present s = .next t) :
    HostEffect s (.ingest present) t := by
  rcases execIngest_cases present s with ⟨_, he⟩ | ⟨_, _, _, _, _, he⟩ | ⟨d, rest, rfl, hport, _, he⟩ <;> rw [he] at h
  · obtain rfl := Host.Outcome.next.inj h
    exact .noDatagram present
  · cases h
  · obtain rfl := Host.Outcome.next.inj h
    exact .received d rest hport

/-- A host operation that completes has one of the effects. -/
theorem hostEffect_of_exec {i : Instr} {s t : State} (hi : i.isHostOp = true) (h : exec i s = .next t) :
    HostEffect s i t := by
  cases i with
  | ingest present => exact hostEffect_ingest h
  | csrWrite idx v =>
    obtain rfl := Host.Outcome.next.inj h
    exact hostEffect_csrWrite s idx v
  | outWrite idx byte =>
    obtain rfl := Host.Outcome.next.inj h
    split
    case isTrue hidx => exact .outWrite idx byte hidx
    case isFalse => exact .quiet _ 0
  | tplWrite idx byte =>
    obtain rfl := Host.Outcome.next.inj h
    split
    case isTrue hidx => exact .tplWrite idx byte hidx
    case isFalse => exact .quiet _ 0
  | nop | csrRead | outRead | tplRead | rxRead | reservedOp9 | reservedOpA | reservedOpB | reservedOpC | reservedOpD
  | reservedOpE | reservedOpF =>
    obtain rfl := Host.Outcome.next.inj h
    exact .quiet _ _
  | artDMX | artPoll | artAddress | artPollReplyReceived | artUnknownOpcode | notArtNet | artAddressCancelMerge
  | artAddressClearBuffer | artAddressNoCommand | artPollReplyEmitted => cases hi

/-- Every host word decodes to a host operation (R93). -/
theorem decodeWord_isHostOp (w : HostWord) : (decodeWord w).isHostOp = true := by
  unfold decodeWord
  split <;> rfl

/-- The word that encodes a host operation decodes to it (R92, R93). -/
theorem decodeWord_of_encode {i : Instr} {w : HostWord} (h : encode i = .host64 w) : decodeWord w = i := by
  cases i with
  | artDMX | artPoll | artAddress | artPollReplyReceived | artUnknownOpcode | notArtNet | artAddressCancelMerge
  | artAddressClearBuffer | artAddressNoCommand | artPollReplyEmitted => cases h
  | nop | csrRead | csrWrite | outRead | outWrite | tplRead | tplWrite | rxRead | ingest | reservedOp9 | reservedOpA
  | reservedOpB | reservedOpC | reservedOpD | reservedOpE | reservedOpF =>
    obtain rfl := Encoding.host64.inj h
    simp [decodeWord]

/-- A step with a word issued (R42). -/
theorem step_of_cons {s : State} {w : HostWord} {rest : List HostWord} (h : s.hostOps = w :: rest) :
    step s = exec (decodeWord w) { s with hostOps := rest } := by
  simp only [step, fetch, h]

/-- A step with none issued (entry 13). -/
theorem step_of_idle {s : State} (h : s.hostOps = []) : step s = .next s := by
  simp only [step, fetch, h]

/-- A step that completes holds an idle state, or has an effect of the next word's operation (R42). -/
theorem hostEffect_of_step {s t : State} (h : step s = .next t) :
    (s.hostOps = [] ∧ t = s)
      ∨ ∃ w rest, s.hostOps = w :: rest ∧ HostEffect { s with hostOps := rest } (decodeWord w) t := by
  rcases step_cases s with ⟨hidle, he⟩ | ⟨w, rest, hops, he⟩ <;> rw [he] at h
  · exact .inl ⟨hidle, (Host.Outcome.next.inj h).symm⟩
  · exact .inr ⟨w, rest, hops, hostEffect_of_exec (decodeWord_isHostOp w) h⟩

/-! ## The routes of a captured packet -/

/-- The dispatcher's four routes (R126 to R130). -/
theorem dispatch_cases (op : Opcode) (len : Nat) (sender : Ip) (s : State) :
    (op = Config.opDmx ∧ dispatch op len sender s = dmxHandler len sender s)
      ∨ (op = Config.opPoll ∧ dispatch op len sender s = pollRoute len sender s)
      ∨ (op = Config.opAddress ∧ dispatch op len sender s = addressRoute len sender s)
      ∨ dispatch op len sender s = (false, s) := by
  unfold dispatch
  split_ifs with hdmx hpoll haddr
  · exact .inl ⟨hdmx, rfl⟩
  · exact .inr (.inl ⟨hpoll, rfl⟩)
  · exact .inr (.inr (.inl ⟨haddr, rfl⟩))
  · exact .inr (.inr (.inr rfl))

/-- A captured packet is handled by one of the dispatcher's routes, by the opcode the validator gives (R120, R126). -/
theorem handle_cases (len : Nat) (sender : Ip) (s : State) :
    handle len sender s = dmxHandler len sender s ∨ handle len sender s = pollRoute len sender s
      ∨ (validate s.rx len = (true, Config.opAddress) ∧ handle len sender s = addressRoute len sender s)
      ∨ handle len sender s = (false, s) := by
  rw [handle]
  rcases validate s.rx len with ⟨_ | _, op⟩
  · exact .inr (.inr (.inr rfl))
  · rcases dispatch_cases op len sender s with ⟨_, h⟩ | ⟨_, h⟩ | ⟨rfl, h⟩ | h
    · exact .inl h
    · exact .inr (.inl h)
    · exact .inr (.inr (.inl ⟨rfl, h⟩))
    · exact .inr (.inr (.inr h))

end Sys2Proof.Machine
end

section
/-! Legality (R45): the reset state is legal and every operation keeps it. One lemma per operation of the model, in the
order of the model's files; the step's is assembled from them. -/

namespace Sys2Proof.Machine

/-! ## Byte arrays -/

theorem Memory.legal_nil (size : Nat) : Memory.legal [] size := by
  simp [Memory.legal, Memory.wf, Memory.below]

theorem Memory.legal_writeBytes {m : Memory} {size base : Nat} {bytes : List Byte} (h : m.legal size)
    (hb : base + bytes.length ≤ size) : (m.writeBytes base bytes).legal size :=
  ⟨wf_writeBytes h.1 base bytes, below_writeBytes h.2 hb⟩

theorem Memory.legal_write {m : Memory} {size i : Nat} (h : m.legal size) (hi : i < size) (v : Byte) :
    (m.write i v).legal size := legal_writeBytes h hi

theorem Memory.legal_zeroRange {m : Memory} {size : Nat} (h : m.legal size) (lo hi : Nat) :
    (m.zeroRange lo hi).legal size := ⟨wf_zeroRange h.1 lo hi, below_zeroRange h.2 lo hi⟩

/-- A range read back where it was written gives the written bytes. -/
theorem Memory.readBytes_writeBytes (m : Memory) (base : Nat) (bytes : List Byte) :
    (m.writeBytes base bytes).readBytes base bytes.length = bytes := by
  apply List.ext_getElem (length_readBytes _ _ _)
  intro i _ hi
  simp [readBytes, read_writeBytes, hi]

/-! ## Reset -/

/-- Settles O2, field by field. -/
theorem resetIsLegal : Obligations.ResetIsLegal where
  outSlots_le := Nat.zero_le 512
  slotsA_le := Nat.zero_le 512
  slotsB_le := Nat.zero_le 512
  rxLen_le := Nat.zero_le _
  single_srcB _ := rfl
  single_slotsB _ := rfl
  tpl_fixed _ _ := rfl
  tpl_node := by decide
  a_legal := Memory.legal_nil 512
  b_legal := Memory.legal_nil 512
  out_legal := Memory.legal_nil 512
  rx_legal := Memory.legal_nil _
  tpl_legal := by constructor <;> decide

section
variable {s : State} (h : s.Inv)
include h

/-! ## The ends of operations, the queues and the capture -/

theorem inv_answer (v : Word32) : (answer v s).Inv := { h with }

theorem inv_takeWord (rest : List HostWord) : State.Inv { s with hostOps := rest } := { h with }

theorem inv_takeDatagram (rest : List Datagram) : State.Inv { s with port := rest } := { h with }

theorem inv_finish (r : Bool) : (finish (r, s)).Inv := { h with }

theorem inv_capture {bytes : List Byte} (hfit : bytes.length ≤ Config.rxCap) : (capture bytes s).Inv :=
  { h with
    rxLen_le := hfit
    rx_legal := Memory.legal_writeBytes h.rx_legal (by omega) }

/-! ## The host's writes -/

theorem inv_enableHtp : (enableHtp s).Inv := by
  cases hen : s.htpEn with
  | true => rwa [enableHtp_of_enabled hen]
  | false =>
    rw [enableHtp_of_disabled hen]
    exact
      { h with
        outSlots_le := Nat.zero_le 512
        slotsA_le := Nat.zero_le 512
        slotsB_le := Nat.zero_le 512
        single_srcB := fun _ => rfl
        single_slotsB := fun _ => rfl
        a_legal := Memory.legal_zeroRange h.a_legal 0 512
        b_legal := Memory.legal_zeroRange h.b_legal 0 512
        out_legal := Memory.legal_zeroRange h.out_legal 0 512 }

theorem inv_writeCtrl (v : Word32) : (writeCtrl v s).Inv := by
  rcases writeCtrl_cases v s with ⟨_, he⟩ | ⟨_, he⟩ <;> rw [he]
  · exact { inv_enableHtp h with }
  · exact { h with }

theorem inv_writePortAddr (v : Word32) : (writePortAddr v s).Inv := { h with }

/-- The four octets go where no fixed byte lies. -/
theorem inv_writeNodeIp (v : Word32) : (writeNodeIp v s).Inv :=
  { h with
    tpl_fixed := fun i hi => by
      have hout : ¬(10 ≤ i ∧ i < 10 + (octets v).length) := by
        simp [fixedOffset] at hi
        simp [octets]
        omega
      rw [writeNodeIp_tpl, Memory.read_writeBytes, if_neg hout, h.tpl_fixed i hi]
    tpl_node := Memory.readBytes_writeBytes s.tpl 10 (octets v)
    tpl_legal := Memory.legal_writeBytes h.tpl_legal (by simp [octets]) }

theorem inv_writeBcastIp (v : Word32) : (writeBcastIp v s).Inv := { h with }

theorem inv_writeNumSlots (v : Word32) : (writeNumSlots v s).Inv := by
  by_cases hv : v.toNat ≤ 512
  · rw [writeNumSlots_of_le hv]
    exact { h with outSlots_le := hv }
  · rwa [writeNumSlots_of_gt (by omega)]

theorem inv_writeOut {i : Nat} (hi : i < 512) (v : Byte) : State.Inv { s with out := s.out.write i v } :=
  { h with out_legal := Memory.legal_write h.out_legal hi v }

/-- Neither a fixed byte nor a node-address byte lies at offset 16 or above (R31). -/
theorem inv_writeTpl {i : Nat} (hlo : 16 ≤ i) (hhi : i < 239) (v : Byte) :
    State.Inv { s with tpl := s.tpl.write i v } :=
  { h with
    tpl_fixed := fun j hj => by
      have hne : j ≠ i := by
        simp [fixedOffset] at hj
        omega
      rw [Memory.read_write, if_neg hne, h.tpl_fixed j hj]
    tpl_node := by
      rw [← h.tpl_node]
      refine Memory.readBytes_congr fun j hj => ?_
      rw [Memory.read_write, if_neg (by omega)]
    tpl_legal := Memory.legal_write h.tpl_legal hhi v }

/-! ## The merge engine -/

theorem inv_bindA (sender : Ip) : (bindA sender s).Inv := by
  unfold bindA
  split
  · exact { h with b_legal := Memory.legal_zeroRange h.b_legal 0 512 }
  · exact h

/-- Source B is bound in HTP mode only (R146). -/
theorem inv_bindB (hen : s.htpEn = true) (sender : Ip) : (bindB sender s).Inv := by
  unfold bindB
  split
  · exact { h with single_srcB := fun hoff => by simp [hen] at hoff }
  · exact h

theorem inv_bindSingle (sender : Ip) : (bindSingle sender s).Inv := by
  unfold bindSingle
  split
  · exact { h with }
  · exact h

theorem inv_merge : (merge s).Inv :=
  have hmax : max s.slotsA s.slotsB ≤ 512 := Nat.max_le.2 ⟨h.slotsA_le, h.slotsB_le⟩
  { h with
    outSlots_le := hmax
    out_legal := Memory.legal_writeBytes h.out_legal (by simpa using hmax) }

theorem inv_frameA {n : Nat} (hn : n ≤ 512) : (frameA n s).Inv :=
  inv_merge
    { h with
      slotsA_le := hn
      a_legal := Memory.legal_writeBytes h.a_legal (by simpa using hn) }

theorem inv_frameB (hen : s.htpEn = true) {n : Nat} (hn : n ≤ 512) : (frameB n s).Inv :=
  inv_merge
    { h with
      slotsB_le := hn
      single_slotsB := fun hoff => by simp [hen] at hoff
      b_legal := Memory.legal_writeBytes h.b_legal (by simpa using hn) }

theorem inv_frameSingle {n : Nat} (hn : n ≤ 512) : (frameSingle n s).Inv :=
  { h with
    outSlots_le := hn
    slotsA_le := hn
    out_legal := Memory.legal_zeroRange (Memory.legal_writeBytes h.out_legal (by simpa using hn)) n 512 }

theorem inv_htpStep (hen : s.htpEn = true) {n : Nat} (hn : n ≤ 512) (sender : Ip) : (htpStep sender n s).2.Inv := by
  rcases htpStep_cases sender n s with ⟨_, he⟩ | ⟨_, _, _, _, he⟩ | ⟨_, _, _, _, _, _, he⟩ <;> rw [he]
  · exact inv_frameA (inv_bindA h sender) hn
  · exact inv_frameB (inv_bindB h hen sender) ((bindB_htpEn sender s).trans hen) hn
  · exact h

theorem inv_singleStep {n : Nat} (hn : n ≤ 512) (sender : Ip) : (singleStep sender n s).2.Inv := by
  rcases singleStep_cases sender n s with ⟨_, _, he⟩ | ⟨_, _, _, he⟩ <;> rw [he]
  · exact inv_frameSingle (inv_bindSingle h sender) hn
  · exact h

theorem inv_dmxHandler (len : Nat) (sender : Ip) : (dmxHandler len sender s).2.Inv := by
  rcases dmxHandler_cases len sender s with he | ⟨_, hn, _, ⟨hen, he⟩ | ⟨_, he⟩⟩ <;> rw [he]
  · exact h
  · exact inv_htpStep h hen hn sender
  · exact inv_singleStep h hn sender

/-! ## The ArtAddress and ArtPoll routes -/

theorem inv_pollReply (sender : Ip) : (pollReply sender s).Inv :=
  { inv_writeTpl h (i := Config.prPaOffset) (by decide) (by decide) s.paLo with }

theorem inv_applyFields : (applyFields s).Inv := { h with }

theorem inv_cancelMerge : (cancelMerge s).2.Inv := { h with single_srcB := fun _ => rfl }

theorem inv_clearBuffer : (clearBuffer s).2.Inv :=
  { h with
    outSlots_le := le_refl 512
    out_legal := Memory.legal_zeroRange h.out_legal 0 512 }

theorem inv_runCommand : (runCommand s).2.Inv := by
  rcases runCommand_cases s with ⟨_, he⟩ | ⟨_, he⟩ | ⟨_, _, he⟩ <;> rw [he]
  · exact inv_cancelMerge h
  · exact inv_clearBuffer h
  · exact h

theorem inv_addressRoute (len : Nat) (sender : Ip) : (addressRoute len sender s).2.Inv := by
  rcases addressRouteWith_cases runCommand len sender s with he | ⟨_, _, he⟩ <;> rw [addressRoute, he]
  · exact h
  · exact inv_pollReply (inv_runCommand (inv_applyFields h)) sender

theorem inv_pollRoute (len : Nat) (sender : Ip) : (pollRoute len sender s).2.Inv := by
  rcases pollRoute_cases len sender s with he | ⟨_, _, he⟩ <;> rw [he]
  · exact h
  · exact inv_pollReply h sender

/-! ## The receive path -/

theorem inv_handle (len : Nat) (sender : Ip) : (handle len sender s).2.Inv := by
  rcases handle_cases len sender s with he | he | ⟨_, he⟩ | he <;> rw [he]
  · exact inv_dmxHandler h len sender
  · exact inv_pollRoute h len sender
  · exact inv_addressRoute h len sender
  · exact h

/-- Only a datagram that fits is captured (R122). -/
theorem inv_receive (sender : Ip) (bytes : List Byte) : (receive handle sender bytes s).Inv := by
  rcases receive_cases handle sender bytes s with ⟨_, he⟩ | ⟨hfit, he⟩ <;> rw [he]
  · exact inv_finish h false
  · exact inv_finish (inv_handle (inv_capture h hfit) bytes.length sender) _

end

/-! ## The step -/

/-- Every effect of a host operation keeps legality. -/
theorem inv_hostEffect {s t : State} {i : Instr} (h : s.Inv) (he : HostEffect s i t) : t.Inv := by
  cases he with
  | quiet _ v => exact inv_answer h v
  | ctrl v => exact inv_answer (inv_writeCtrl h v) 0
  | portAddr v => exact inv_answer (inv_writePortAddr h v) 0
  | nodeIp v => exact inv_answer (inv_writeNodeIp h v) 0
  | bcastIp v => exact inv_answer (inv_writeBcastIp h v) 0
  | numSlots v => exact inv_answer (inv_writeNumSlots h v) 0
  | outWrite idx byte hidx => exact inv_answer (inv_writeOut h hidx byte) 0
  | tplWrite idx byte hidx =>
    obtain ⟨hhi, hlo, _⟩ := hostOwned_iff.1 hidx
    exact inv_answer (inv_writeTpl h hlo hhi byte) 0
  | noDatagram => exact inv_finish h false
  | received d rest _ => exact inv_receive (inv_takeDatagram h rest) d.sender d.bytes

/-- Settles O4: a step holds an idle state, or runs an operation at the state with its word taken. -/
theorem stepKeepsLegality : Obligations.StepKeepsLegality := by
  intro s t h hstep
  rcases hostEffect_of_step hstep with ⟨_, rfl⟩ | ⟨w, rest, _, he⟩
  · exact h
  · exact inv_hostEffect (inv_takeWord h rest) he

end Sys2Proof.Machine
end

section
/-! Who writes what: the writers of `RESULT`, `HTP_EN`, the Address Model and the template over every step. -/

namespace Sys2Proof.Machine

/-! ## What the ArtDMX and ArtPoll routes leave alone -/

theorem AddressFrame.refl (s : State) : AddressFrame s s := ⟨rfl, rfl, rfl, rfl, rfl⟩

/-- No ArtDMX packet touches the Address Model, the template or the transmit stream. -/
theorem dmxHandler_addressFrame (len : Nat) (sender : Ip) (s : State) :
    AddressFrame s (dmxHandler len sender s).2 := by
  rcases dmxHandler_cases len sender s with h | ⟨_, _, _, ⟨_, h⟩ | ⟨_, h⟩⟩ <;> rw [h]
  · exact .refl s
  · rcases htpStep_cases sender (rxSlotCount s.rx) s with ⟨_, h⟩ | ⟨_, _, _, _, h⟩ | ⟨_, _, _, _, _, _, h⟩ <;> rw [h]
    · constructor <;> simp
    · constructor <;> simp
    · exact .refl s
  · rcases singleStep_cases sender (rxSlotCount s.rx) s with ⟨_, _, h⟩ | ⟨_, _, _, h⟩ <;> rw [h]
    · constructor <;> simp
    · exact .refl s

/-- A poll reply writes no template byte but its port-address byte (R201). -/
theorem pollReply_tpl_read (sender : Ip) (s : State) {i : Nat} (hi : i ≠ 190) :
    (pollReply sender s).tpl.read i = s.tpl.read i := by
  rw [pollReply_tpl, Memory.read_write, if_neg hi]

theorem runCommand_tpl (s : State) : (runCommand s).2.tpl = s.tpl := by
  rcases runCommand_cases s with ⟨_, h⟩ | ⟨_, h⟩ | ⟨_, _, h⟩ <;> rw [h] <;> rfl

/-- No captured packet writes a template byte but the port-address byte (R205). -/
theorem handle_tpl_read (len : Nat) (sender : Ip) (s : State) {i : Nat} (hi : i ≠ 190) :
    (handle len sender s).2.tpl.read i = s.tpl.read i := by
  rcases handle_cases len sender s with h | h | ⟨_, h⟩ | h <;> rw [h]
  · rw [(dmxHandler_addressFrame len sender s).tpl]
  · rcases pollRoute_cases len sender s with h | ⟨_, _, h⟩ <;> rw [h]
    exact pollReply_tpl_read sender s hi
  · rcases addressRouteWith_cases runCommand len sender s with h | ⟨_, _, h⟩ <;> rw [addressRoute, h]
    rw [pollReply_tpl_read sender _ hi, runCommand_tpl, applyFields_tpl]

/-- The Address Model of two states is the same (R21). -/
def SameAddressModel (s t : State) : Prop := t.net = s.net ∧ t.subnet = s.subnet ∧ t.univ = s.univ

/-- No captured packet but ArtAddress touches the Address Model. -/
theorem handle_addressModel {len : Nat} {s : State} (hop : validate s.rx len ≠ (true, Config.opAddress))
    (sender : Ip) : SameAddressModel s (handle len sender s).2 := by
  rcases handle_cases len sender s with h | h | ⟨haddr, _⟩ | h
  · have hf := dmxHandler_addressFrame len sender s
    rw [h]
    exact ⟨hf.net, hf.subnet, hf.univ⟩
  · rw [h]
    rcases pollRoute_cases len sender s with h | ⟨_, _, h⟩ <;> rw [h] <;> exact ⟨rfl, rfl, rfl⟩
  · exact absurd haddr hop
  · rw [h]
    exact ⟨rfl, rfl, rfl⟩

/-- A captured datagram that the validator gives the opcode of ArtAddress is one that decodes to ArtAddress (R89,
R126). -/
theorem decodeDatagram_of_validate_address {d : Datagram} {s : State}
    (h : validate (capture d.bytes s).rx d.bytes.length = (true, Config.opAddress)) :
    decodeDatagram d = .artAddress d.sender (d.bytes.drop 10) := by
  rw [validate_capture] at h
  split at h
  case isTrue hheader =>
    have hop : opcodeOfBytes (packetByte d.bytes 8) (packetByte d.bytes 9) = Config.opAddress := (Prod.mk.inj h).2
    rw [decodeDatagram, if_pos hheader]
    simp [hop]
  case isFalse => simp at h

/-! ## What a received datagram leaves alone -/

theorem receive_htpEn (sender : Ip) (bytes : List Byte) (s : State) :
    (receive handle sender bytes s).htpEn = s.htpEn := by
  rcases receive_cases handle sender bytes s with ⟨_, h⟩ | ⟨_, h⟩ <;> rw [h]
  · rfl
  · exact (handle_frame bytes.length sender (capture bytes s)).htpEn

theorem receive_tpl_read (sender : Ip) (bytes : List Byte) (s : State) {i : Nat} (hi : i ≠ 190) :
    (receive handle sender bytes s).tpl.read i = s.tpl.read i := by
  rcases receive_cases handle sender bytes s with ⟨_, h⟩ | ⟨_, h⟩ <;> rw [h]
  · rfl
  · exact handle_tpl_read bytes.length sender (capture bytes s) hi

/-- A received datagram that is no ArtAddress packet leaves the Address Model alone. -/
theorem receive_addressModel {d : Datagram} (hd : decodeDatagram d ≠ .artAddress d.sender (d.bytes.drop 10))
    (s : State) : SameAddressModel s (receive handle d.sender d.bytes s) := by
  rcases receive_cases handle d.sender d.bytes s with ⟨_, h⟩ | ⟨_, h⟩ <;> rw [h]
  · exact ⟨rfl, rfl, rfl⟩
  · exact handle_addressModel (mt decodeDatagram_of_validate_address hd) d.sender

/-! ## `HTP_EN` -/

/-- The enable sets the mode, whatever it was (R154). -/
@[simp] theorem enableHtp_htpEn (s : State) : (enableHtp s).htpEn = true := by
  cases h : s.htpEn with
  | true => rw [enableHtp_of_enabled h, h]
  | false => rw [enableHtp_of_disabled h]

theorem writeCtrl_htpEn (v : Word32) (s : State) : (writeCtrl v s).htpEn = (v.getLsbD 0 || s.htpEn) := by
  rcases writeCtrl_cases v s with ⟨hv, h⟩ | ⟨hv, h⟩ <;> rw [h, hv]
  · exact enableHtp_htpEn s
  · rfl

/-- A host operation keeps the mode, or is a `CTRL` write of 1 to bit 0 that sets it (R23). -/
theorem HostEffect.htpEn_cases {s t : State} {i : Instr} (h : HostEffect s i t) :
    t.htpEn = s.htpEn ∨ (t.htpEn = true ∧ ∃ v : Word32, i = .csrWrite 0x00#16 v ∧ v.getLsbD 0 = true) := by
  cases h with
  | ctrl v =>
    rw [answer_htpEn, writeCtrl_htpEn]
    cases hv : v.getLsbD 0 with
    | true => exact .inr ⟨rfl, v, rfl, hv⟩
    | false => exact .inl rfl
  | numSlots v => exact .inl (writeNumSlots_htpEn v s)
  | received d rest _ => exact .inl (receive_htpEn d.sender d.bytes _)
  | quiet | portAddr | nodeIp | bcastIp | outWrite | tplWrite | noDatagram => exact .inl rfl

/-- Settles O54, by the two cases of an operation's effect on the mode. -/
theorem htpEnableIsOneWay : Obligations.HtpEnableIsOneWay := by
  intro s t hstep
  rcases hostEffect_of_step hstep with ⟨_, rfl⟩ | ⟨w, rest, hops, he⟩
  · exact ⟨id, fun hoff hon => absurd (hoff.symm.trans hon) Bool.false_ne_true⟩
  · rcases he.htpEn_cases with hkeep | ⟨hon, v, hw, hv⟩
    · exact ⟨hkeep.trans, fun hoff hon => absurd ((hkeep.trans hoff).symm.trans hon) Bool.false_ne_true⟩
    · exact ⟨fun _ => hon, fun _ _ => ⟨w, rest, v, hops, hw, hv⟩⟩

/-! ## The Address Model -/

/-- A host operation that changes the Address Model is a `PORT_ADDR` write or the `INGEST` of an ArtAddress packet
(R21). -/
theorem HostEffect.addressModel_cases {s t : State} {i : Instr} (h : HostEffect s i t) :
    SameAddressModel s t ∨ (∃ v, i = .csrWrite 0x01#16 v)
      ∨ (i = .ingest true
          ∧ ∃ d ds sender body, s.port = d :: ds ∧ decodeDatagram d = .artAddress sender body) := by
  cases h with
  | portAddr v => exact .inr (.inl ⟨v, rfl⟩)
  | received d rest hport =>
    by_cases hd : decodeDatagram d = .artAddress d.sender (d.bytes.drop 10)
    · exact .inr (.inr ⟨rfl, d, rest, _, _, hport, hd⟩)
    · exact .inl (receive_addressModel hd { s with port := rest })
  | ctrl v =>
    rcases writeCtrl_cases v s with ⟨_, h⟩ | ⟨_, h⟩ <;> rw [h] <;> exact .inl (by simp [SameAddressModel])
  | numSlots v => exact .inl (by simp [SameAddressModel])
  | quiet | nodeIp | bcastIp | outWrite | tplWrite | noDatagram => exact .inl ⟨rfl, rfl, rfl⟩

/-- Settles O55: the two cases of an operation that changes the Address Model are the two writers. -/
theorem addressModelHasTwoWriters : Obligations.AddressModelHasTwoWriters := by
  intro s t hstep hchanged
  rcases hostEffect_of_step hstep with ⟨_, rfl⟩ | ⟨w, rest, hops, he⟩
  · exact absurd ⟨rfl, rfl, rfl⟩ hchanged
  · exact ⟨w, rest, hops, he.addressModel_cases.resolve_left hchanged⟩

/-! ## The template -/

/-- A host operation that changes template byte `i` is that byte's one writer (R31, R205). -/
theorem HostEffect.tpl_cases {s t : State} {i : Instr} (h : HostEffect s i t) (k : Nat) :
    t.tpl.read k = s.tpl.read k ∨ (k = 190 ∧ i = .ingest true)
      ∨ (10 ≤ k ∧ k ≤ 13 ∧ ∃ v, i = .csrWrite 0x02#16 v)
      ∨ (16 ≤ k ∧ k < 239 ∧ k ≠ 190 ∧ ∃ idx byte, i = .tplWrite idx byte ∧ idx.toNat = k) := by
  cases h with
  | nodeIp v =>
    by_cases hk : 10 ≤ k ∧ k ≤ 13
    · exact .inr (.inr (.inl ⟨hk.1, hk.2, v, rfl⟩))
    · have hout : ¬(10 ≤ k ∧ k < 10 + (octets v).length) := by
        simp only [octets, List.length_cons, List.length_nil]
        omega
      exact .inl (by rw [answer_tpl, writeNodeIp_tpl, Memory.read_writeBytes, if_neg hout])
  | tplWrite idx byte hidx =>
    by_cases hk : k = idx.toNat
    · obtain ⟨hhi, hlo, hne⟩ := hostOwned_iff.1 hidx
      subst hk
      exact .inr (.inr (.inr ⟨hlo, hhi, hne, idx, byte, rfl, rfl⟩))
    · exact .inl (by rw [answer_tpl, Memory.read_write, if_neg hk])
  | received d rest _ =>
    by_cases hk : k = 190
    · exact .inr (.inl ⟨hk, rfl⟩)
    · exact .inl (receive_tpl_read d.sender d.bytes { s with port := rest } hk)
  | ctrl v => rcases writeCtrl_cases v s with ⟨_, h⟩ | ⟨_, h⟩ <;> rw [h] <;> exact .inl (by simp)
  | numSlots v => exact .inl (by simp)
  | quiet | portAddr | bcastIp | outWrite | noDatagram => exact .inl rfl

/-- Settles O56, by the three writers of a template byte. -/
theorem templateBytesHaveOneWriter : Obligations.TemplateBytesHaveOneWriter := by
  intro s t i hstep hchanged
  rcases hostEffect_of_step hstep with ⟨_, rfl⟩ | ⟨w, rest, hops, he⟩
  · exact absurd rfl hchanged
  · exact ⟨w, rest, hops, (he.tpl_cases i).resolve_left hchanged⟩

/-! ## `RESULT` -/

/-- Every host operation but an `INGEST` keeps `RESULT` (R32). -/
theorem HostEffect.result_eq {s t : State} {i : Instr} (h : HostEffect s i t) (hi : ∀ p, i ≠ .ingest p) :
    t.result = s.result := by
  cases h with
  | noDatagram present => exact absurd rfl (hi present)
  | received => exact absurd rfl (hi true)
  | ctrl v => rcases writeCtrl_cases v s with ⟨_, h⟩ | ⟨_, h⟩ <;> rw [h] <;> simp
  | numSlots v => simp
  | quiet | portAddr | nodeIp | bcastIp | outWrite | tplWrite => rfl

/-- The state with another value in `RESULT`. -/
def withResult (r : Bool) (s : State) : State := { s with result := r }

/-- A handler that neither reads nor writes `RESULT`: it answers the same bit, and the same state but for `RESULT`. -/
def IgnoresResult (handler : State → Bool × State) : Prop :=
  ∀ (r : Bool) (s : State), handler (withResult r s) = ((handler s).1, withResult r (handler s).2)

/-- An update of the state that neither reads nor writes `RESULT`. -/
def KeepsResult (update : State → State) : Prop :=
  ∀ (r : Bool) (s : State), update (withResult r s) = withResult r (update s)

/-- A choice on a condition that does not read `RESULT`. -/
theorem IgnoresResult.ite {c : State → Prop} [DecidablePred c] {f g : State → Bool × State}
    (hc : ∀ r s, c (withResult r s) ↔ c s) (hf : IgnoresResult f) (hg : IgnoresResult g) :
    IgnoresResult fun s => if c s then f s else g s := by
  intro r s
  by_cases h : c s
  · simp only [hc, h, if_true]
    exact hf r s
  · simp only [hc, h, if_false]
    exact hg r s

/-- A handler run after an update. -/
theorem IgnoresResult.after {f : State → State} {g : State → Bool × State} (hg : IgnoresResult g)
    (hf : KeepsResult f) : IgnoresResult fun s => g (f s) := by
  intro r s
  simp only [hf r s]
  exact hg r (f s)

/-- A drop. -/
theorem IgnoresResult.drop : IgnoresResult fun s => (false, s) := fun _ _ => rfl

theorem bindA_keepsResult (sender : Ip) : KeepsResult (bindA sender) := by
  intro r s
  by_cases h : s.srcA = none <;> simp [bindA, withResult, h]

theorem bindB_keepsResult (sender : Ip) : KeepsResult (bindB sender) := by
  intro r s
  by_cases h : s.srcB = none <;> simp [bindB, withResult, h]

theorem bindSingle_keepsResult (sender : Ip) : KeepsResult (bindSingle sender) := by
  intro r s
  by_cases h : s.srcA = none <;> simp [bindSingle, withResult, h]

theorem htpStep_ignoresResult (sender : Ip) (n : Nat) : IgnoresResult (htpStep sender n) := by
  have hB : IgnoresResult fun s => if s.srcB = some sender then (true, frameB n s) else (false, s) :=
    .ite (fun _ _ => Iff.rfl) (fun _ _ => rfl) .drop
  have hA := IgnoresResult.ite (c := fun s => s.srcA = some sender) (f := fun s => (true, frameA n s))
    (fun _ _ => Iff.rfl) (fun _ _ => rfl) (hB.after (bindB_keepsResult sender))
  exact (hA.after (bindA_keepsResult sender) :)

theorem singleStep_ignoresResult (sender : Ip) (n : Nat) : IgnoresResult (singleStep sender n) := by
  have hA : IgnoresResult fun s => if s.srcA = some sender then (true, frameSingle n s) else (false, s) :=
    .ite (fun _ _ => Iff.rfl) (fun _ _ => rfl) .drop
  exact (hA.after (bindSingle_keepsResult sender) :)

theorem dmxHandler_ignoresResult (len : Nat) (sender : Ip) : IgnoresResult (dmxHandler len sender) :=
  .ite (fun _ _ => Iff.rfl) .drop <| .ite (fun _ _ => Iff.rfl) .drop <| .ite (fun _ _ => Iff.rfl) .drop <|
    .ite (fun _ _ => Iff.rfl) .drop <| .ite (fun _ _ => Iff.rfl)
      (fun r s => htpStep_ignoresResult sender (rxSlotCount s.rx) r s)
      (fun r s => singleStep_ignoresResult sender (rxSlotCount s.rx) r s)

theorem runCommand_ignoresResult : IgnoresResult runCommand :=
  .ite (fun _ _ => Iff.rfl) (fun _ _ => rfl) <| .ite (fun _ _ => Iff.rfl) (fun _ _ => rfl) .drop

theorem addressRoute_ignoresResult (len : Nat) (sender : Ip) : IgnoresResult (addressRoute len sender) := by
  refine .ite (fun _ _ => Iff.rfl) (fun r s => ?_) .drop
  have h : runCommand (applyFields (withResult r s))
      = ((runCommand (applyFields s)).1, withResult r (runCommand (applyFields s)).2) :=
    runCommand_ignoresResult r (applyFields s)
  simp only [h]
  rfl

theorem pollRoute_ignoresResult (len : Nat) (sender : Ip) : IgnoresResult (pollRoute len sender) :=
  .ite (fun _ _ => Iff.rfl) (fun _ _ => rfl) .drop

theorem dispatch_ignoresResult (op : Opcode) (len : Nat) (sender : Ip) : IgnoresResult (dispatch op len sender) :=
  .ite (fun _ _ => Iff.rfl) (dmxHandler_ignoresResult len sender) <|
    .ite (fun _ _ => Iff.rfl) (pollRoute_ignoresResult len sender) <|
      .ite (fun _ _ => Iff.rfl) (addressRoute_ignoresResult len sender) .drop

theorem handle_ignoresResult (len : Nat) (sender : Ip) : IgnoresResult (handle len sender) :=
  .ite (fun _ _ => Iff.rfl) (fun r s => dispatch_ignoresResult (validate s.rx len).2 len sender r s) .drop

/-- A reception writes `RESULT` whatever it was (R131). -/
theorem receive_withResult (sender : Ip) (bytes : List Byte) (r : Bool) (s : State) :
    receive handle sender bytes (withResult r s) = receive handle sender bytes s := by
  by_cases hfit : bytes.length ≤ Config.rxCap
  · have hcapture : capture bytes (withResult r s) = withResult r (capture bytes s) := rfl
    rw [receive_of_fits hfit, receive_of_fits hfit, hcapture, handle_ignoresResult bytes.length sender r]
    rfl
  · rw [receive_of_oversize (by omega), receive_of_oversize (by omega)]
    rfl

/-- An `INGEST` writes `RESULT` whatever it was (R131). -/
theorem execIngest_withResult (present r : Bool) (s : State) :
    execIngest present (withResult r s) = execIngest present s := by
  cases present with
  | false => rfl
  | true =>
    cases hport : s.port with
    | nil =>
      rw [execIngest_of_empty hport, execIngest_of_empty (s := withResult r s) hport]
      rfl
    | cons d rest =>
      have hreceive := receive_withResult d.sender d.bytes r { s with port := rest }
      rw [execIngest_of_cons hport, execIngest_of_cons (s := withResult r s) hport, ← hreceive]
      rfl

/-- Settles O53, by the effect of a host operation on `RESULT` and by the independence of an `INGEST` from it. -/
theorem onlyIngestWritesResult : Obligations.OnlyIngestWritesResult := by
  constructor
  · intro s t w rest hops hw hstep
    rcases hostEffect_of_step hstep with ⟨hidle, _⟩ | ⟨w', rest', hops', he⟩
    · simp [hops] at hidle
    · obtain ⟨rfl, rfl⟩ := List.cons.inj (hops.symm.trans hops')
      exact he.result_eq hw
  · intro s t present r h
    exact (execIngest_withResult present r s).trans h

end Sys2Proof.Machine
end

section
/-! The CSRs (R34 to R41) and the step of a decoded host operation (R42): each register's read datum as a number, its
write as a record update, and the bits that no register has. -/

namespace Sys2Proof.Machine

/-! ## The two CSR operations -/

theorem exec_csrRead (idx : Index) (s : State) : exec (.csrRead idx) s = .next { s with rdata := csrValue idx s } := rfl

theorem exec_csrWrite (idx : Index) (v : Word32) (s : State) :
    exec (.csrWrite idx v) s = .next { writeCsr idx v s with rdata := 0 } := rfl

/-- A write that a register ignores returns the read datum 0 only. -/
theorem exec_csrWrite_ignored {idx : Index} (h : 5 ≤ idx.toNat) (v : Word32) (s : State) :
    exec (.csrWrite idx v) s = .next { s with rdata := 0 } := by
  rw [exec_csrWrite, writeCsr_ignored h]

/-! ## The values as numbers -/

theorem csrValue_ctrl_eq_ofNat (s : State) :
    csrValue 0x00#16 s = BitVec.ofNat 32 (s.htpEn.toNat + 2 * s.bcastEn.toNat) := by
  rw [csrValue_ctrl]
  cases s.htpEn <;> cases s.bcastEn <;> decide

theorem csrValue_result_eq_ofNat (s : State) : csrValue 0x05#16 s = BitVec.ofNat 32 s.result.toNat := by
  rw [csrValue_result]
  cases s.result <;> decide

/-- `PA = NET * 256 + SUBNET * 16 + UNIVERSE` (R22). -/
theorem State.pa_toNat (s : State) : s.pa.toNat = s.net.toNat * 256 + s.subnet.toNat * 16 + s.univ.toNat := by
  rw [State.pa, BitVec.toNat_append, ← Nat.shiftLeft_add_eq_or_of_lt s.paLo.isLt, Nat.shiftLeft_eq, State.paLo_toNat,
    State.paLoNat, Nat.add_assoc]

theorem csrValue_portAddr_toNat (s : State) : (csrValue 0x01#16 s).toNat = s.pa.toNat := by
  rw [csrValue_portAddr, BitVec.toNat_setWidth]
  exact Nat.mod_eq_of_lt (by have := s.pa.isLt; omega)

theorem csrValue_portAddr_eq_ofNat (s : State) :
    csrValue 0x01#16 s = BitVec.ofNat 32 (s.net.toNat * 256 + s.subnet.toNat * 16 + s.univ.toNat) := by
  rw [← State.pa_toNat, ← csrValue_portAddr_toNat, BitVec.ofNat_toNat, BitVec.setWidth_eq]

/-- In a legal state `NUM_SLOTS` reads the whole count (R38). -/
theorem csrValue_numSlots_toNat {s : State} (h : s.Inv) : (csrValue 0x04#16 s).toNat = s.outSlots := by
  have := h.outSlots_le
  rw [csrValue_numSlots, BitVec.toNat_ofNat]
  omega

theorem State.Inv.rxLen_lt {s : State} (h : s.Inv) : s.rxLen < 2 ^ 16 := by
  have hlen := h.rxLen_le
  have hcap := Config.rxCap_le
  omega

/-- In a legal state `RX_LEN` reads the whole length (R40). -/
theorem csrValue_rxLen_toNat {s : State} (h : s.Inv) : (csrValue 0x06#16 s).toNat = s.rxLen := by
  have := h.rxLen_lt
  rw [csrValue_rxLen, BitVec.toNat_ofNat]
  omega

/-- A bit field of a word is a quotient of its number. -/
theorem extractLsb'_eq_ofNat_div (v : Word32) (start len : Nat) :
    v.extractLsb' start len = BitVec.ofNat len (v.toNat / 2 ^ start) := by
  rw [← Nat.shiftRight_eq_div_pow]
  rfl

/-! ## The registers -/

/-- Settles O12, by the two cases of a `CTRL` write. -/
theorem ctrlRegister : Obligations.CtrlRegister := by
  intro s v
  refine ⟨by rw [exec_csrRead, csrValue_ctrl_eq_ofNat], ?_, ?_, rfl, rfl⟩
  · intro h
    rw [exec_csrWrite, writeCsr_ctrl]
    rcases writeCtrl_cases v s with ⟨hv, hw⟩ | ⟨_, hw⟩
    · have hen : s.htpEn = true := h.resolve_left (by simp [hv])
      rw [hw, enableHtp_of_enabled hen]
    · rw [hw]
  · intro hv _
    rw [exec_csrWrite, writeCsr_ctrl, writeCtrl, if_pos hv]

/-- Settles O14: the three fields are bit fields of the datum. -/
theorem portAddrRegister : Obligations.PortAddrRegister := by
  intro s v
  refine ⟨by rw [exec_csrRead, csrValue_portAddr_eq_ofNat], ?_, rfl, rfl, rfl⟩
  simp only [exec_csrWrite, writeCsr_portAddr, writePortAddr, extractLsb'_eq_ofNat_div, Nat.reducePow, Nat.div_one]

/-- A template byte after a write of `NODE_IP` (R36). -/
theorem writeNodeIp_tpl_read (v : Word32) (s : State) (i : Nat) :
    (writeNodeIp v s).tpl.read i
      = if 10 ≤ i ∧ i < 14 then (octets v).getD (i - 10) 0#8 else s.tpl.read i := Memory.read_writeBytes ..

/-- Settles O15: the four octets are bit fields of the datum. -/
theorem nodeIpRegister : Obligations.NodeIpRegister := by
  intro s v
  have hoctet : ∀ start, v.extractLsb' start 8 = BitVec.ofNat 8 (v.toNat / 2 ^ start) :=
    fun start => extractLsb'_eq_ofNat_div v start 8
  refine ⟨rfl, ⟨(writeNodeIp v s).tpl, rfl, ?_, ?_, ?_, ?_, ?_⟩, rfl⟩
  · exact (writeNodeIp_tpl_read v s 10).trans (hoctet 24)
  · exact (writeNodeIp_tpl_read v s 11).trans (hoctet 16)
  · exact (writeNodeIp_tpl_read v s 12).trans (hoctet 8)
  · exact (writeNodeIp_tpl_read v s 13).trans ((hoctet 0).trans (by rw [Nat.pow_zero, Nat.div_one]))
  · intro i hi
    rw [writeNodeIp_tpl_read, if_neg (by omega)]

/-- Settles O16: the next reply's destination is the written address. -/
theorem bcastIpRegister : Obligations.BcastIpRegister := by
  intro s v
  refine ⟨rfl, rfl, ?_, rfl⟩
  intro sender hbcast
  refine ⟨_, _, rfl, pollReply_tx sender _, ?_⟩
  exact if_pos hbcast

/-- Settles O17, by the two sides of the bound 512. -/
theorem numSlotsRegister : Obligations.NumSlotsRegister := by
  intro s v
  refine ⟨rfl, ?_, ?_, ?_, rfl⟩
  · intro hv
    rw [exec_csrWrite, writeCsr_numSlots, writeNumSlots_of_le hv]
  · intro hv
    rw [exec_csrWrite, writeCsr_numSlots, writeNumSlots_of_gt hv]
  · intro h
    have hread := csrValue_numSlots_toNat h
    exact ⟨_, exec_csrRead 0x04#16 s, hread, hread.le.trans h.outSlots_le⟩

/-- Settles O18: both numbers are ignored by a write. -/
theorem readOnlyRegisters : Obligations.ReadOnlyRegisters := by
  intro s v
  refine ⟨by rw [exec_csrRead, csrValue_result_eq_ofNat], rfl, ?_, ?_, ?_, rfl, rfl⟩
  · exact fun h => ⟨csrValue_rxLen_toNat h, h.rxLen_lt⟩
  · exact exec_csrWrite_ignored (by decide) v s
  · exact exec_csrWrite_ignored (by decide) v s

/-! ## Reserved bits (R41, R61) -/

/-- A number below `2 ^ k` has none of the bits from `k` on. -/
theorem and_eq_zero_of_lt {v mask : Word32} {k : Nat} (hv : v.toNat < 2 ^ k)
    (hmask : ∀ i < k, mask.getLsbD i = false) : v &&& mask = 0 := by
  apply BitVec.eq_of_getLsbD_eq
  intro i _
  rw [BitVec.getLsbD_and, show (0 : Word32).getLsbD i = false from BitVec.getLsbD_zero, Bool.and_eq_false_iff]
  rcases Nat.lt_or_ge i k with hlow | hhigh
  · exact .inr (hmask i hlow)
  · exact .inl (Nat.testBit_lt_two_pow (hv.trans_le (Nat.pow_le_pow_right (by decide) hhigh)))

theorem csrValue_ctrl_lt (s : State) : (csrValue 0x00#16 s).toNat < 2 ^ 2 := by
  rw [csrValue_ctrl]
  cases s.htpEn <;> cases s.bcastEn <;> decide

theorem csrValue_result_lt (s : State) : (csrValue 0x05#16 s).toNat < 2 ^ 1 := by
  rw [csrValue_result]
  cases s.result <;> decide

/-- A field that lies inside a mask is the field of the masked word. -/
theorem extractLsb'_and_of_mask {v mask : Word32} {start len : Nat}
    (hmask : mask.extractLsb' start len = BitVec.allOnes len) :
    (v &&& mask).extractLsb' start len = v.extractLsb' start len := by
  rw [BitVec.extractLsb'_and, hmask, BitVec.and_allOnes]

/-- A `CTRL` write reads bits 1 and 0 only (R34). -/
theorem writeCtrl_and_mask (v : Word32) (s : State) : writeCtrl (v &&& 0x00000003#32) s = writeCtrl v s := by
  have hbit0 : (v &&& 0x00000003#32).getLsbD 0 = v.getLsbD 0 := by simp
  have hbit1 : (v &&& 0x00000003#32).getLsbD 1 = v.getLsbD 1 := by simp
  rw [writeCtrl, writeCtrl, hbit0, hbit1]

/-- A `PORT_ADDR` write reads bits 14 to 0 only (R35). -/
theorem writePortAddr_and_mask (v : Word32) (s : State) :
    writePortAddr (v &&& 0x00007FFF#32) s = writePortAddr v s := by
  rw [writePortAddr, writePortAddr, extractLsb'_and_of_mask (start := 8) (len := 7) (by decide),
    extractLsb'_and_of_mask (start := 4) (len := 4) (by decide),
    extractLsb'_and_of_mask (start := 0) (len := 4) (by decide)]

/-- Settles O19: each value is below the power of two that its register's fields fill. -/
theorem reservedRegistersAreInert : Obligations.ReservedRegistersAreInert := by
  refine ⟨fun s idx v hidx => ⟨?_, ?_⟩, fun s => ⟨?_, ?_, ?_⟩, fun s h => ⟨?_, ?_⟩, fun s v => ⟨?_, ?_⟩⟩
  · rw [exec_csrRead, csrValue_reserved hidx]
  · exact exec_csrWrite_ignored (by omega) v s
  · exact and_eq_zero_of_lt (csrValue_ctrl_lt s) (by decide)
  · exact and_eq_zero_of_lt (k := 15) (by rw [csrValue_portAddr_toNat]; exact s.pa.isLt) (by decide)
  · exact and_eq_zero_of_lt (csrValue_result_lt s) (by decide)
  · have hle := h.outSlots_le
    exact and_eq_zero_of_lt (k := 10) (by rw [csrValue_numSlots_toNat h]; omega) (by decide)
  · exact and_eq_zero_of_lt (k := 16) (by rw [csrValue_rxLen_toNat h]; exact h.rxLen_lt) (by decide)
  · rw [exec_csrWrite, exec_csrWrite, writeCsr_ctrl, writeCsr_ctrl, writeCtrl_and_mask]
  · rw [exec_csrWrite, exec_csrWrite, writeCsr_portAddr, writeCsr_portAddr, writePortAddr_and_mask]

/-! ## The step of a decoded operation (R42) -/

/-- Settles O5, by the two equations of the step. -/
theorem stepRunsTheNextHostOperation : Obligations.StepRunsTheNextHostOperation := by
  refine ⟨fun s w rest h => step_of_cons h, ?_, fun s h => step_of_idle h⟩
  intro s i w rest _ hencode hops
  rw [step_of_cons hops, decodeWord_of_encode hencode]

end Sys2Proof.Machine
end

section
/-! The write order (R71) and the transmit stream (R72): a host write is seen by the operation after it, and a step
sends at most one request. -/

namespace Sys2Proof.Machine

/-! ## The byte spaces -/

/-- A write inside the levels (R223). -/
theorem exec_outWrite_of_lt {idx : Index} (h : idx.toNat < 512) (byte : Byte) (s : State) :
    exec (.outWrite idx byte) s = .next (answer 0 { s with out := s.out.write idx.toNat byte }) := by
  rw [exec, execOutWrite, if_pos h]

/-- A write of a host-owned template byte (R225). -/
theorem exec_tplWrite_of_hostOwned {idx : Index} (h : hostOwned idx.toNat = true) (byte : Byte) (s : State) :
    exec (.tplWrite idx byte) s = .next (answer 0 { s with tpl := s.tpl.write idx.toNat byte }) := by
  rw [exec, execTplWrite, if_pos h]

theorem exec_outRead (idx : Index) (s : State) :
    exec (.outRead idx) s = .next (answer (hostByte s.out 512 idx) s) := rfl

/-- A host read inside the readable range, as a number (R62 to R64). -/
theorem hostByte_toNat_of_lt {m : Memory} {size : Nat} {idx : Index} (h : idx.toNat < size) :
    (hostByte m size idx).toNat = (m.read idx.toNat).toNat := by
  rw [hostByte_of_lt h, BitVec.toNat_setWidth_of_le (by decide)]

/-! ## The address match -/

/-- The written port-address is the low 15 bits of the datum (R22, R35). -/
theorem writePortAddr_pa_toNat (v : Word32) (s : State) :
    (writePortAddr v s).paLoNat + 256 * (writePortAddr v s).net.toNat = v.toNat % 2 ^ 15 := by
  simp only [State.paLoNat, writePortAddr, BitVec.extractLsb'_toNat, Nat.shiftRight_eq_div_pow]
  omega

/-- An ArtDMX packet that fits `RX` and carries another port-address is dropped, whole header or not (R140). -/
theorem exec_artDMX_of_mismatch {s : State} {body : List Byte} (hfit : 10 + body.length ≤ Config.rxCap)
    (hpa : ¬((bodyByte body 14).toNat = s.paLoNat ∧ (bodyByte body 15).toNat = s.net.toNat)) (sender : Ip) :
    exec (.artDMX sender body) s = .next (droppedState (packet 0x5000#16 body) s) := by
  have hdrop : dmxHandler (packet Config.opDmx body).length sender (capture (packet Config.opDmx body) s)
      = (false, capture (packet Config.opDmx body) s) := by
    rcases dmxHandler_cases (packet Config.opDmx body).length sender (capture (packet Config.opDmx body) s)
      with h | ⟨hlen, _, hmatch, _⟩
    · exact h
    · rw [length_packet] at hlen
      exact absurd ((addressMatches_capture Config.opDmx body s (by omega)).1 hmatch) hpa
  exact congrArg Host.Outcome.next (receive_of_ignored (by rwa [length_packet]) hdrop)

/-! ## The bytes of a reply -/

/-- A reply carries every template byte but the port-address byte as it is (R201, R204). -/
theorem getD_replyRequest_bytes (sender : Ip) (s : State) {i : Nat} (hi : i < 239) (hpa : i ≠ 190) :
    (replyRequest sender (refreshPortAddress s)).bytes.getD i 0#8 = s.tpl.read i := by
  rw [replyRequest, Memory.getD_readBytes, if_pos hi, Nat.zero_add, refreshPortAddress_tpl, Memory.read_write,
    if_neg hpa]

/-- Settles O25: each write is a record update that the next operation reads. -/
theorem writesAreSeenByTheNextOperation : Obligations.WritesAreSeenByTheNextOperation := by
  refine ⟨?_, ?_, ?_⟩
  · intro s t u idx byte hidx hwrite hread
    rw [exec_outWrite_of_lt hidx] at hwrite
    obtain rfl := Host.Outcome.next.inj hwrite
    rw [exec_outRead] at hread
    obtain rfl := Host.Outcome.next.inj hread
    rw [answer_rdata, hostByte_toNat_of_lt hidx, answer_out, Memory.read_write, if_pos rfl]
  · intro s t v sender body hwrite hfit hne
    obtain rfl := Host.Outcome.next.inj hwrite
    refine exec_artDMX_of_mismatch hfit (fun hpa => hne ?_) sender
    obtain ⟨hlo, hhi⟩ := hpa
    rw [hlo, hhi]
    exact writePortAddr_pa_toNat v s
  · intro s t u idx byte sender hlo hhi hpa hwrite hreply
    rw [exec_tplWrite_of_hostOwned (hostOwned_iff.2 ⟨hhi, hlo, hpa⟩)] at hwrite
    obtain rfl := Host.Outcome.next.inj hwrite
    obtain rfl := Host.Outcome.next.inj hreply
    refine ⟨_, pollReply_tx sender _, ?_⟩
    rw [getD_replyRequest_bytes sender _ hhi hpa, answer_tpl, Memory.read_write, if_pos rfl]

/-! ## The transmit stream -/

/-- At most one request is sent between two states, after every earlier one (R72). -/
def SendsAtMostOne (s t : State) : Prop := t.tx = s.tx ∨ ∃ r, t.tx = s.tx ++ [r]

theorem runCommand_tx (s : State) : (runCommand s).2.tx = s.tx := by
  rcases runCommand_cases s with ⟨_, h⟩ | ⟨_, h⟩ | ⟨_, _, h⟩ <;> rw [h] <;> rfl

/-- A captured packet sends at most the one reply of its route (R128, R129). -/
theorem handle_sendsAtMostOne (len : Nat) (sender : Ip) (s : State) :
    SendsAtMostOne s (handle len sender s).2 := by
  rcases handle_cases len sender s with h | h | ⟨_, h⟩ | h <;> rw [h]
  · exact .inl (dmxHandler_addressFrame len sender s).tx
  · rcases pollRoute_cases len sender s with h | ⟨_, _, h⟩ <;> rw [h]
    · exact .inl rfl
    · exact .inr ⟨_, pollReply_tx sender s⟩
  · rcases addressRouteWith_cases runCommand len sender s with h | ⟨_, _, h⟩ <;> rw [addressRoute, h]
    · exact .inl rfl
    · exact .inr ⟨_, by rw [pollReply_tx, runCommand_tx, applyFields_tx]⟩
  · exact .inl rfl

theorem receive_sendsAtMostOne (sender : Ip) (bytes : List Byte) (s : State) :
    SendsAtMostOne s (receive handle sender bytes s) := by
  rcases receive_cases handle sender bytes s with ⟨_, h⟩ | ⟨_, h⟩ <;> rw [h]
  · exact .inl rfl
  · exact handle_sendsAtMostOne bytes.length sender (capture bytes s)

/-- A host operation sends nothing, or is an `INGEST` with `PRESENT = 1` that sends at most one request (R72). -/
theorem HostEffect.tx_cases {s t : State} {i : Instr} (h : HostEffect s i t) :
    t.tx = s.tx ∨ (i = .ingest true ∧ SendsAtMostOne s t) := by
  cases h with
  | received d rest _ => exact .inr ⟨rfl, receive_sendsAtMostOne d.sender d.bytes { s with port := rest }⟩
  | ctrl v => rcases writeCtrl_cases v s with ⟨_, h⟩ | ⟨_, h⟩ <;> rw [h] <;> exact .inl (by simp)
  | numSlots v => exact .inl (writeNumSlots_tx v s)
  | quiet | portAddr | nodeIp | bcastIp | outWrite | tplWrite | noDatagram => exact .inl rfl

/-- Settles O52, by the two cases of an operation's effect on the transmit stream. -/
theorem oneTransmitRequestPerIngest : Obligations.OneTransmitRequestPerIngest := by
  intro s t hstep
  rcases hostEffect_of_step hstep with ⟨_, rfl⟩ | ⟨w, rest, hops, he⟩
  · exact ⟨.inl rfl, fun hchanged => absurd rfl hchanged⟩
  · rcases he.tx_cases with hkeep | ⟨hw, hsends⟩
    · exact ⟨.inl hkeep, fun hchanged => absurd hkeep hchanged⟩
    · exact ⟨hsends, fun _ => ⟨w, rest, hops, hw⟩⟩

end Sys2Proof.Machine
end

section
/-! The encodings (R80 to R97): the decoders read back what the encoder and the script assembler write, and a host word
decodes by its used fields alone. -/

namespace Sys2Proof.Machine

/-! ## Datagrams -/

/-- A number of bytes that fits the port is announced whole (R95). -/
theorem datagramOf_len_toNat {bytes : List Byte} (h : bytes.length ≤ 65535) (sender : Ip) :
    (datagramOf sender bytes).len.toNat = bytes.length := by
  simp only [datagramOf, BitVec.toNat_ofNat]
  omega

theorem length_addressPacket {front : List Byte} (hf : front.length = 96) (c : Byte) (tail : List Byte) :
    (addressPacket front c tail).length = 107 + tail.length := by
  rw [addressPacket, length_packet, List.length_append, List.length_cons, hf]
  omega

theorem fitsLen_iff {n : Nat} : fitsLen n = true ↔ n ≤ 65535 := decide_eq_true_iff

/-- The datagram of an encoding, if it is one to be received, announces the number of its bytes (R95). -/
def LenIsByteCount : Encoding → Prop
  | .artnetDatagram d | .artAddressCommand d => d.len.toNat = d.bytes.length
  | .host64 _ | .emittedDatagram _ _ => True

/-- The packet of an opcode and a body that fits is announced by its length. -/
theorem lenIsByteCount_packet {body : List Byte} (h : fitsLen (10 + body.length) = true) (sender : Ip) (op : Opcode) :
    LenIsByteCount (.artnetDatagram (datagramOf sender (packet op body))) :=
  datagramOf_len_toNat (by rw [length_packet]; exact fitsLen_iff.1 h) sender

/-- The ArtAddress packet of a command is announced by its length when its tail fits. -/
theorem lenIsByteCount_addressPacket {front tail : List Byte} (hf : front.length = 96)
    (h : fitsLen (107 + tail.length) = true) (sender : Ip) (c : Byte) :
    LenIsByteCount (.artAddressCommand (datagramOf sender (addressPacket front c tail))) :=
  datagramOf_len_toNat (by rw [length_addressPacket hf]; exact fitsLen_iff.1 h) sender

/-- A well-formed instruction is encoded with a right `LEN`. -/
theorem lenIsByteCount_encode {i : Instr} (h : i.wellFormed = true) : LenIsByteCount (encode i) := by
  cases i with
  | artDMX sender body | artPoll sender body | artAddress sender body | artPollReplyReceived sender body =>
    exact lenIsByteCount_packet h sender _
  | artUnknownOpcode sender op body =>
    simp only [Instr.wellFormed, Bool.and_eq_true] at h
    obtain ⟨⟨⟨⟨hfits, _⟩, _⟩, _⟩, _⟩ := h
    exact lenIsByteCount_packet hfits sender op
  | notArtNet sender bytes =>
    simp only [Instr.wellFormed, Bool.and_eq_true] at h
    exact datagramOf_len_toNat (fitsLen_iff.1 h.1) sender
  | artAddressCancelMerge sender front tail | artAddressClearBuffer sender front tail =>
    simp only [Instr.wellFormed, Bool.and_eq_true, decide_eq_true_eq] at h
    exact lenIsByteCount_addressPacket h.1 h.2 sender _
  | artAddressNoCommand sender front c tail =>
    simp only [Instr.wellFormed, Bool.and_eq_true, decide_eq_true_eq] at h
    obtain ⟨⟨⟨hfront, hfits⟩, _⟩, _⟩ := h
    exact lenIsByteCount_addressPacket hfront hfits sender c
  | artPollReplyEmitted | nop | csrRead | csrWrite | outRead | outWrite | tplRead | tplWrite | rxRead | ingest
  | reservedOp9 | reservedOpA | reservedOpB | reservedOpC | reservedOpD | reservedOpE | reservedOpF => trivial

/-! ## Reading back an encoding -/

/-- `hasHeader` decides the header condition of the decoder (R124). -/
theorem hasHeader_iff {bytes : List Byte} :
    hasHeader bytes = true ↔ 10 ≤ bytes.length ∧ bytes.take 8 = Config.magic := by
  simp [hasHeader]

/-- The decoder reads back every well-formed instruction, format by format (R80). -/
theorem decode_encode {i : Instr} (h : i.wellFormed = true) : decode (encode i) = .ok i := by
  cases i with
  | artDMX sender body | artPoll sender body | artAddress sender body | artPollReplyReceived sender body =>
    exact congrArg Except.ok (decodeDatagram_packet _ sender _ body)
  | artUnknownOpcode sender op body =>
    simp only [Instr.wellFormed, Bool.and_eq_true, decide_eq_true_eq] at h
    obtain ⟨⟨⟨⟨_, hdmx⟩, hpoll⟩, haddress⟩, hreply⟩ := h
    refine congrArg Except.ok ((decodeDatagram_packet _ sender op body).trans ?_)
    rw [if_neg hdmx, if_neg hpoll, if_neg haddress, if_neg hreply]
  | notArtNet sender bytes =>
    simp only [Instr.wellFormed, Bool.and_eq_true, Bool.not_eq_true'] at h
    have hheader : ¬(10 ≤ bytes.length ∧ bytes.take 8 = Config.magic) := by
      rw [← hasHeader_iff, h.2]
      exact Bool.false_ne_true
    exact congrArg Except.ok (decodeDatagram_noHeader (d := datagramOf sender bytes) hheader)
  | artAddressCancelMerge sender front tail | artAddressClearBuffer sender front tail =>
    simp only [Instr.wellFormed, Bool.and_eq_true, decide_eq_true_eq] at h
    exact decodeCommand_addressPacket _ sender h.1 _ tail
  | artAddressNoCommand sender front c tail =>
    simp only [Instr.wellFormed, Bool.and_eq_true, decide_eq_true_eq] at h
    obtain ⟨⟨⟨hfront, _⟩, hcancel⟩, hclear⟩ := h
    refine (decodeCommand_addressPacket _ sender hfront c tail).trans ?_
    rw [if_neg hcancel, if_neg hclear]
  | artPollReplyEmitted sender => rfl
  | nop | csrRead | csrWrite | outRead | outWrite | tplRead | tplWrite | rxRead | ingest | reservedOp9 | reservedOpA
  | reservedOpB | reservedOpC | reservedOpD | reservedOpE | reservedOpF =>
    exact congrArg Except.ok (decodeWord_of_encode rfl)

/-- Settles O7, by the decoder's inverse and the length that the encoder announces. -/
theorem decodeReadsBackEveryEncoding : Obligations.DecodeReadsBackEveryEncoding := by
  refine ⟨fun i h => decode_encode h, fun i d h hd => ?_⟩
  have hlen := lenIsByteCount_encode h
  rcases hd with hd | hd <;> rwa [hd] at hlen

/-! ## The used fields of a host word (R92, R94) -/

/-- Words that agree on a mask agree on every field inside it. -/
theorem extractLsb'_congr_of_mask {n start len : Nat} {w w' mask : BitVec n} (h : w &&& mask = w' &&& mask)
    (hmask : mask.extractLsb' start len = BitVec.allOnes len) :
    w.extractLsb' start len = w'.extractLsb' start len :=
  calc w.extractLsb' start len
      = (w &&& mask).extractLsb' start len := by rw [BitVec.extractLsb'_and, hmask, BitVec.and_allOnes]
    _ = (w' &&& mask).extractLsb' start len := by rw [h]
    _ = w'.extractLsb' start len := by rw [BitVec.extractLsb'_and, hmask, BitVec.and_allOnes]

/-- `OP` is the top of the word. -/
theorem opField_toNat (w : HostWord) : (opField w).toNat = (w >>> 60).toNat := by
  have hw : w.toNat < 2 ^ 64 := w.isLt
  rw [opField, BitVec.extractLsb'_toNat, BitVec.toNat_ushiftRight, Nat.shiftRight_eq_div_pow]
  omega

theorem opField_of_shift {w : HostWord} {op : BitVec 4} (h : w >>> 60 = op.setWidth 64) : opField w = op :=
  BitVec.eq_of_toNat_eq (by rw [opField_toNat, h, BitVec.toNat_setWidth_of_le (by decide)])

/-- A word decodes by its operation code, its index and its datum (R93). -/
theorem decodeWord_congr {w w' : HostWord} (hop : opField w = opField w') (hidx : idxField w = idxField w')
    (hdata : dataField w = dataField w') : decodeWord w = decodeWord w' := by
  simp only [decodeWord, byteField_eq, presentField_eq, hop, hidx, hdata]

theorem decodeWord_of_op_four {w : HostWord} (h : opField w = 4#4) :
    decodeWord w = .outWrite (idxField w) (byteField w) := by
  rw [decodeWord, h]
  rfl

theorem decodeWord_of_op_six {w : HostWord} (h : opField w = 6#4) :
    decodeWord w = .tplWrite (idxField w) (byteField w) := by
  rw [decodeWord, h]
  rfl

theorem decodeWord_of_op_eight {w : HostWord} (h : opField w = 8#4) : decodeWord w = .ingest (presentField w) := by
  rw [decodeWord, h]
  rfl

/-- Settles O8: each word is the one that encodes its operation, but for the `OUT` write, whose datum has a bit above
its byte. -/
theorem sampleWordsDecode : Obligations.SampleWordsDecode :=
  ⟨decodeWord_of_encode rfl, decodeWord_of_encode rfl, decodeWord_of_op_four rfl, decodeWord_of_encode rfl,
    decodeWord_of_encode rfl, decodeWord_of_encode rfl, decodeWord_of_encode rfl, decodeWord_of_encode rfl,
    decodeWord_of_encode rfl, decodeWord_of_encode rfl⟩

/-- A word with a reserved code executes as `NOP` (R94). -/
theorem exec_decodeWord_of_reserved {w : HostWord} (h : 9 ≤ (opField w).toNat) (s : State) :
    exec (decodeWord w) s = exec .nop s := by
  unfold decodeWord
  split
  case h_1 hop | h_2 hop | h_3 hop | h_4 hop | h_5 hop | h_6 hop | h_7 hop | h_8 hop | h_9 hop => omega
  all_goals rfl

/-- Byte writes that agree on `OP`, `IDX` and `DATA[7:0]` decode alike (R94). -/
theorem decodeWord_byteWrite_congr {w w' : HostWord} (hw : w >>> 60 = 4#64 ∨ w >>> 60 = 6#64)
    (h : w &&& 0xF0FFFF00000000FF#64 = w' &&& 0xF0FFFF00000000FF#64) : decodeWord w = decodeWord w' := by
  have hop : opField w = opField w' := extractLsb'_congr_of_mask h (by decide)
  have hidx : idxField w = idxField w' := extractLsb'_congr_of_mask h (by decide)
  have hbyte : byteField w = byteField w' := extractLsb'_congr_of_mask h (by decide)
  rcases hw with hw | hw
  · have hfour : opField w = 4#4 := opField_of_shift hw
    rw [decodeWord_of_op_four hfour, decodeWord_of_op_four (hop.symm.trans hfour), hidx, hbyte]
  · have hsix : opField w = 6#4 := opField_of_shift hw
    rw [decodeWord_of_op_six hsix, decodeWord_of_op_six (hop.symm.trans hsix), hidx, hbyte]

/-- `INGEST` words that agree on `OP` and `PRESENT` decode alike (R94). -/
theorem decodeWord_ingest_congr {w w' : HostWord} (hw : w >>> 60 = 8#64) (hop : opField w = opField w')
    (hpresent : presentField w = presentField w') : decodeWord w = decodeWord w' := by
  have height : opField w = 8#4 := opField_of_shift hw
  rw [decodeWord_of_op_eight height, decodeWord_of_op_eight (hop.symm.trans height), hpresent]

/-- Settles O9: each mask covers the fields its words decode by. -/
theorem reservedHostEncodingsAreIgnored : Obligations.ReservedHostEncodingsAreIgnored := by
  refine ⟨fun w w' h => ?_, fun w w' hw h => decodeWord_byteWrite_congr hw h, fun w w' hw h => ?_,
    fun w s hw => ?_, fun _ _ f => nomatch f⟩
  · exact decodeWord_congr (extractLsb'_congr_of_mask h (by decide)) (extractLsb'_congr_of_mask h (by decide))
      (extractLsb'_congr_of_mask h (by decide))
  · have hpresent : presentField w = presentField w' := by simpa [presentField] using congrArg (BitVec.getLsbD · 0) h
    exact decodeWord_ingest_congr hw (extractLsb'_congr_of_mask h (by decide)) hpresent
  · exact exec_decodeWord_of_reserved (by rw [opField_toNat]; exact hw) s

/-! ## Script lines (R97) -/

/-- The script word of an operation's fields decodes to the operation. -/
theorem decodeWord_scriptWord {i : Instr} {op : BitVec 4} {idx : Index} {data : Word32}
    (h : encode i = .host64 (hostWord op idx data)) : decodeWord (scriptWord op.toNat idx data) = i := by
  rw [scriptWord_eq_hostWord]
  exact decodeWord_of_encode h

/-- A byte write takes the low byte of any datum. -/
theorem byteField_scriptWord (op : BitVec 4) (idx : Index) (v : Word32) :
    byteField (scriptWord op.toNat idx v) = v.setWidth 8 := by
  rw [scriptWord_eq_hostWord, byteField_eq, dataField_hostWord, BitVec.setWidth_eq_extractLsb' (by decide)]

theorem opField_scriptWord (op : BitVec 4) (idx : Index) (v : Word32) : opField (scriptWord op.toNat idx v) = op := by
  rw [scriptWord_eq_hostWord, opField_hostWord]

theorem idxField_scriptWord (op : BitVec 4) (idx : Index) (v : Word32) :
    idxField (scriptWord op.toNat idx v) = idx := by
  rw [scriptWord_eq_hostWord, idxField_hostWord]

theorem decodeWord_outw (idx : Index) (v : Word32) :
    decodeWord (ScriptLine.assemble (.outw idx v)).1 = .outWrite idx (v.setWidth 8) := by
  refine (decodeWord_of_op_four (opField_scriptWord 4#4 idx v)).trans ?_
  rw [idxField_scriptWord, byteField_scriptWord]

theorem decodeWord_tplw (idx : Index) (v : Word32) :
    decodeWord (ScriptLine.assemble (.tplw idx v)).1 = .tplWrite idx (v.setWidth 8) := by
  refine (decodeWord_of_op_six (opField_scriptWord 6#4 idx v)).trans ?_
  rw [idxField_scriptWord, byteField_scriptWord]

/-- Settles O10: but for the byte writes, whose datum may have high bits, each line's word is the encoding of its
operation. -/
theorem scriptLinesAssembleToTheirOperations : Obligations.ScriptLinesAssembleToTheirOperations := by
  intro idx v sender bytes
  refine ⟨?nop, ?csrr, ?csrw, ?outr, decodeWord_outw idx v, ?tplr, decodeWord_tplw idx v, ?rxr, ?ingestNone,
    ?ingestRaw, rfl⟩
  case nop => exact decodeWord_scriptWord (op := 0#4) rfl
  case csrr => exact decodeWord_scriptWord (op := 1#4) rfl
  case csrw => exact decodeWord_scriptWord (op := 2#4) rfl
  case outr => exact decodeWord_scriptWord (op := 3#4) rfl
  case tplr => exact decodeWord_scriptWord (op := 5#4) rfl
  case rxr => exact decodeWord_scriptWord (op := 7#4) rfl
  case ingestNone => exact decodeWord_scriptWord (op := 8#4) rfl
  case ingestRaw => exact decodeWord_scriptWord (op := 8#4) rfl

end Sys2Proof.Machine
end

section
/-! The receive path (R120 to R131): the row of a datagram means what an `INGEST` of it does; the capture, and the
datagrams that are ignored. -/

namespace Sys2Proof.Machine

/-! ## The validator (R124) -/

/-- The opcode as a number, low byte first (R83). -/
theorem opcodeOfBytes_eq_ofNat (lo hi : Byte) :
    opcodeOfBytes lo hi = BitVec.ofNat 16 (lo.toNat + 256 * hi.toNat) := by
  have hlo : lo.toNat < 2 ^ 8 := lo.isLt
  have hhi : hi.toNat < 2 ^ 8 := hi.isLt
  apply BitVec.eq_of_toNat_eq
  rw [opcodeOfBytes, BitVec.toNat_append, ← Nat.shiftLeft_add_eq_or_of_lt hlo, Nat.shiftLeft_eq, BitVec.toNat_ofNat]
  omega

/-- Settles O11: the validator's value on a captured datagram, with the opcode as a number. -/
theorem validatorReadsMagicAndOpcode : Obligations.ValidatorReadsMagicAndOpcode := by
  intro bytes s
  rw [validate_capture, opcodeOfBytes_eq_ofNat]
  rfl

/-! ## The operations of the receive path -/

theorem exec_ingest_absent (s : State) : exec (.ingest false) s = .next (finish (false, s)) := rfl

/-- An `INGEST` of a datagram with a right `LEN` receives it (R120). -/
theorem exec_ingest_of_cons {s : State} {d : Datagram} {rest : List Datagram} (hport : s.port = d :: rest)
    (hlen : d.len.toNat = d.bytes.length) :
    exec (.ingest true) s = .next (receive handle d.sender d.bytes { s with port := rest }) :=
  (execIngest_of_cons hport).trans (if_pos hlen)

/-- An `INGEST` of bytes that fit `RX` receives them: the capacity fits `LEN` (R6, R95). -/
theorem exec_ingest_of_fits {s : State} {sender : Ip} {bytes : List Byte} {rest : List Datagram}
    (hport : s.port = datagramOf sender bytes :: rest) (hfit : bytes.length ≤ Config.rxCap) :
    exec (.ingest true) s = .next (receive handle sender bytes { s with port := rest }) :=
  exec_ingest_of_cons hport (datagramOf_len_toNat (hfit.trans Config.rxCap_le) sender)

theorem exec_artPoll (sender : Ip) (body : List Byte) (s : State) :
    exec (.artPoll sender body) s = .next (receive pollRoute sender (packet 0x2000#16 body) s) := rfl

theorem exec_artAddress (sender : Ip) (body : List Byte) (s : State) :
    exec (.artAddress sender body) s
      = .next (receive (addressRouteWith runCommand) sender (packet 0x6000#16 body) s) := rfl

theorem exec_artUnknownOpcode (sender : Ip) (op : Opcode) (body : List Byte) (s : State) :
    exec (.artUnknownOpcode sender op body) s = .next (receive ignoreRoute sender (packet op body) s) := rfl

theorem exec_artPollReplyReceived (sender : Ip) (body : List Byte) (s : State) :
    exec (.artPollReplyReceived sender body) s = .next (receive ignoreRoute sender (packet 0x2100#16 body) s) := rfl

theorem exec_notArtNet (sender : Ip) (bytes : List Byte) (s : State) :
    exec (.notArtNet sender bytes) s = .next (receive ignoreRoute sender bytes s) := rfl

theorem exec_artAddressNoCommand (sender : Ip) (front : List Byte) (c : Byte) (tail : List Byte) (s : State) :
    exec (.artAddressNoCommand sender front c tail) s
      = .next (receive (addressRouteWith noCommand) sender (packet 0x6000#16 (front ++ c :: tail)) s) := rfl

theorem exec_artAddressCancelMerge (sender : Ip) (front tail : List Byte) (s : State) :
    exec (.artAddressCancelMerge sender front tail) s
      = .next (receive (addressRouteWith cancelMerge) sender (packet 0x6000#16 (front ++ 0x01#8 :: tail)) s) := rfl

theorem exec_artAddressClearBuffer (sender : Ip) (front tail : List Byte) (s : State) :
    exec (.artAddressClearBuffer sender front tail) s
      = .next (receive (addressRouteWith clearBuffer) sender (packet 0x6000#16 (front ++ 0x90#8 :: tail)) s) := rfl

/-- Settles O26: the equation of an `INGEST` with `PRESENT = 0`. -/
theorem ingestWithoutADatagram : Obligations.IngestWithoutADatagram :=
  exec_ingest_absent

/-! ## The row of a datagram (R120, R126) -/

/-- A reception depends on what its route does with the captured datagram only. -/
theorem receive_congr {route route' : Nat → Ip → State → Bool × State} {sender : Ip} {bytes : List Byte} {s : State}
    (h : route bytes.length sender (capture bytes s) = route' bytes.length sender (capture bytes s)) :
    receive route sender bytes s = receive route' sender bytes s := by
  rw [receive, receive, h]

/-- An opcode other than the three with a route is ignored (R130). -/
theorem dispatch_of_other {op : Opcode} (hdmx : op ≠ 0x5000#16) (hpoll : op ≠ 0x2000#16) (haddr : op ≠ 0x6000#16) :
    dispatch op = ignoreRoute := by
  funext len sender s
  rw [dispatch, if_neg hdmx, if_neg hpoll, if_neg haddr]

/-- A packet with a header is received by the route of its opcode (R126). -/
theorem receive_handle_packet (op : Opcode) (body : List Byte) (sender : Ip) (s : State) :
    receive handle sender (packet op body) s = receive (dispatch op) sender (packet op body) s :=
  receive_congr (handle_capture_packet op body sender s)

/-- A datagram without a header is ignored (R124). -/
theorem receive_handle_noHeader {bytes : List Byte} (h : ¬(10 ≤ bytes.length ∧ bytes.take 8 = Config.magic))
    (sender : Ip) (s : State) : receive handle sender bytes s = receive ignoreRoute sender bytes s :=
  receive_congr (handle_capture_noHeader h sender s)

/-- The row that a packet decodes to is received by the route of the packet's opcode (R89, R126). -/
theorem exec_decodeDatagram_packet (len : BitVec 16) (sender : Ip) (op : Opcode) (body : List Byte) (s : State) :
    exec (decodeDatagram ⟨len, sender, packet op body⟩) s
      = .next (receive (dispatch op) sender (packet op body) s) := by
  rw [decodeDatagram_packet]
  split_ifs with hdmx hpoll haddr hreply
  · subst hdmx
    rfl
  · subst hpoll
    rfl
  · subst haddr
    rfl
  · subst hreply
    rfl
  · rw [dispatch_of_other hdmx hpoll haddr, exec_artUnknownOpcode]

/-- The row of a datagram means its reception by validator and dispatcher (R120). -/
theorem exec_decodeDatagram (d : Datagram) (s : State) :
    exec (decodeDatagram d) s = .next (receive handle d.sender d.bytes s) := by
  obtain ⟨len, sender, bytes⟩ := d
  by_cases hheader : 10 ≤ bytes.length ∧ bytes.take 8 = Config.magic
  · obtain ⟨hlen, hmagic⟩ := hheader
    rw [packet_of_header hlen hmagic, exec_decodeDatagram_packet, receive_handle_packet]
  · rw [decodeDatagram_noHeader hheader, exec_notArtNet, receive_handle_noHeader hheader]

/-- Settles O30: the `INGEST` and the row are the same reception. -/
theorem ingestRunsTheRowOfItsDatagram : Obligations.IngestRunsTheRowOfItsDatagram := by
  intro s d rest hport hlen
  rw [exec_ingest_of_cons hport hlen, exec_decodeDatagram]

/-- Settles O28, by the capacity check of the datagram's reception. -/
theorem oversizeDatagramIsDroppedWhole : Obligations.OversizeDatagramIsDroppedWhole := by
  intro s d hover
  rw [exec_decodeDatagram, receive_of_oversize hover]
  rfl

/-! ## The capture (R123) -/

/-- A handler that keeps its frame leaves the datagram captured. -/
theorem HandlerFrame.captured {bytes : List Byte} {s : State} {p : Bool × State}
    (h : HandlerFrame (capture bytes s) p.2) : Captured bytes s (finish p) where
  rxLen := h.rxLen
  inside i hi := by
    have hrx : (finish p).rx = (capture bytes s).rx := h.rx
    rw [hrx, capture_read, if_pos hi]
  beyond i hi := by
    have hrx : (finish p).rx = (capture bytes s).rx := h.rx
    rw [hrx, capture_read, if_neg (Nat.not_lt.2 hi)]

/-- A handler that keeps its frame leaves the mode, the configuration and the queues alone (R186). -/
theorem HandlerFrame.ingestFrame {bytes : List Byte} {s : State} {p : Bool × State}
    (h : HandlerFrame (capture bytes s) p.2) : IngestFrame s (finish p) where
  htpEn := h.htpEn
  bcastEn := h.bcastEn
  bcastIp := h.bcastIp
  nodeIp := h.nodeIp
  hostOps := h.hostOps
  port := h.port

/-- `RX_READ` gives the bytes of the captured datagram (R226). -/
theorem exec_rxRead_of_captured {bytes : List Byte} {s t : State} (h : Captured bytes s t) {idx : Index}
    (hidx : idx.toNat < bytes.length) :
    exec (.rxRead idx) t = .next { t with rdata := (bytes.getD idx.toNat 0#8).setWidth 32 } := by
  have hbyte : hostByte t.rx t.rxLen idx = (bytes.getD idx.toNat 0#8).setWidth 32 := by
    rw [hostByte_of_lt (by rwa [h.rxLen]), h.inside _ hidx]
  rw [exec, execRxRead, hbyte]
  rfl

/-- Settles O29: no handler writes what was captured. -/
theorem ingestCapturesTheDatagram : Obligations.IngestCapturesTheDatagram := by
  intro s d rest hport hlen hfit
  have hframe := handle_frame d.bytes.length d.sender (capture d.bytes { s with port := rest })
  have hcaptured := hframe.captured
  refine ⟨_, ?_, { hcaptured with }, hframe.port, fun _ hidx => exec_rxRead_of_captured hcaptured hidx⟩
  rw [exec_ingest_of_cons hport hlen, receive_of_fits hfit]

/-! ## Datagrams that are ignored (R124, R130) -/

theorem receive_ignoreRoute {bytes : List Byte} (hfit : bytes.length ≤ Config.rxCap) (sender : Ip) (s : State) :
    receive ignoreRoute sender bytes s = droppedState bytes s :=
  receive_of_ignored hfit rfl

/-- Settles O34: both rows and the dispatcher take the ignoring route. -/
theorem otherOpcodesAreNoOps : Obligations.OtherOpcodesAreNoOps := by
  refine ⟨fun s sender op body hbody hdmx hpoll haddr => ?_, fun s sender body hbody => ?_⟩
  · have hfit : (packet op body).length ≤ Config.rxCap := by rwa [length_packet]
    refine ⟨?_, fun rest hport => ?_⟩
    · rw [exec_artUnknownOpcode, receive_ignoreRoute hfit]
    · rw [exec_ingest_of_fits hport hfit, receive_handle_packet, dispatch_of_other hdmx hpoll haddr,
        receive_ignoreRoute hfit]
  · rw [exec_artPollReplyReceived, receive_ignoreRoute (by rwa [length_packet])]

/-- Settles O35: the row and the validator take the ignoring route. -/
theorem notArtNetIsANoOp : Obligations.NotArtNetIsANoOp := by
  intro s sender bytes hfit hbad
  have hheader : ¬(10 ≤ bytes.length ∧ bytes.take 8 = Config.magic) := by
    rintro ⟨hlen, hmagic⟩
    exact hbad.elim hlen.not_gt fun hne => hne hmagic
  refine ⟨?_, fun rest hport => ?_⟩
  · rw [exec_notArtNet, receive_ignoreRoute hfit]
  · rw [exec_ingest_of_fits hport hfit, receive_handle_noHeader hheader, receive_ignoreRoute hfit]

end Sys2Proof.Machine
end

section
/-! Packets that are checked for length and version (R128, R129), and the poll reply (R200). -/

namespace Sys2Proof.Machine

/-! ## Rejected packets -/

/-- A captured packet that passes the checks of length and version in `RX` passes them over its own bytes. -/
theorem not_rejected_of_checks {minLen : Nat} (hmin : 12 ≤ minLen) {op : Opcode} {body : List Byte} {s : State}
    (hlen : minLen ≤ (packet op body).length) (hver : 14 ≤ ((capture (packet op body) s).rx.read 11).toNat) :
    ¬(10 + body.length < minLen ∨ (bodyByte body 11).toNat < 14) := by
  rw [length_packet] at hlen
  rw [capture_packet_read op body s 11 (by decide) (by omega)] at hver
  omega

/-- A rejected ArtAddress packet is dropped, whatever its command (R129). -/
theorem receive_addressRouteWith_of_rejected {op : Opcode} {body : List Byte}
    (hfit : (packet op body).length ≤ Config.rxCap)
    (hrej : 10 + body.length < 107 ∨ (bodyByte body 11).toNat < 14) (command : State → Bool × State) (sender : Ip)
    (s : State) :
    receive (addressRouteWith command) sender (packet op body) s = droppedState (packet op body) s := by
  apply receive_of_ignored hfit
  rcases addressRouteWith_cases command (packet op body).length sender (capture (packet op body) s)
    with hdrop | ⟨hlen, hver, _⟩
  · exact hdrop
  · exact absurd hrej (not_rejected_of_checks (by decide) hlen hver)

/-- A rejected ArtPoll packet is dropped (R128). -/
theorem receive_pollRoute_of_rejected {op : Opcode} {body : List Byte}
    (hfit : (packet op body).length ≤ Config.rxCap)
    (hrej : 10 + body.length < 14 ∨ (bodyByte body 11).toNat < 14) (sender : Ip) (s : State) :
    receive pollRoute sender (packet op body) s = droppedState (packet op body) s := by
  apply receive_of_ignored hfit
  rcases pollRoute_cases (packet op body).length sender (capture (packet op body) s) with hdrop | ⟨hlen, hver, _⟩
  · exact hdrop
  · exact absurd hrej (not_rejected_of_checks (by decide) hlen hver)

/-- The version byte of an ArtAddress packet lies in its front. -/
theorem bodyByte_version_append {front : List Byte} (hfront : front.length = 96) (rest : List Byte) :
    bodyByte (front ++ rest) 11 = bodyByte front 11 :=
  List.getD_append _ _ _ _ (by omega)

/-- Settles O47: each of the four rows has the ArtAddress route with a command of its own. -/
theorem rejectedArtAddressChangesNothing : Obligations.RejectedArtAddressChangesNothing := by
  refine ⟨fun s sender body hbody hrej => ?_, fun s sender front c tail hfront htail hver => ?_⟩
  · rw [exec_artAddress, receive_addressRouteWith_of_rejected (by rwa [length_packet]) hrej]
  · have hdrop (cmd : Byte) := receive_addressRouteWith_of_rejected (op := 0x6000#16) (body := front ++ cmd :: tail)
      ((length_addressPacket hfront cmd tail).trans_le htail) (.inr (by rwa [bodyByte_version_append hfront]))
    refine ⟨?_, ?_, ?_⟩
    · rw [exec_artAddressNoCommand, hdrop]
    · rw [exec_artAddressCancelMerge, hdrop]
    · rw [exec_artAddressClearBuffer, hdrop]

/-- Settles O49, by the drop of the row's one route. -/
theorem rejectedArtPollChangesNothing : Obligations.RejectedArtPollChangesNothing := by
  intro s sender body hbody hrej
  rw [exec_artPoll, receive_pollRoute_of_rejected (by rwa [length_packet]) hrej]

/-! ## The answered ArtPoll -/

/-- The encoder answers as R200 to R204 say. -/
theorem replied_pollReply (sender : Ip) (s : State) : Replied sender s (pollReply sender s) where
  paByte := by
    rw [pollReply_tpl, Memory.read_write, if_pos rfl, State.paLo_toNat]
    rfl
  others _ hi := pollReply_tpl_read sender s hi
  tx := by
    rw [pollReply_tx, replyRequest, Memory.readBytes]
    simp only [Nat.zero_add]
    rfl

/-- A poll reply leaves the merge engine alone (R200). -/
theorem pollReply_mergeFrame (sender : Ip) (s : State) : MergeFrame s (pollReply sender s) := by
  constructor <;> rfl

/-- An ArtPoll packet that passes the checks gets its reply (R128). -/
theorem pollRoute_of_accepted {op : Opcode} {body : List Byte} (hlen : 14 ≤ 10 + body.length)
    (hver : 14 ≤ (bodyByte body 11).toNat) (sender : Ip) (s : State) :
    pollRoute (packet op body).length sender (capture (packet op body) s)
      = (false, pollReply sender (capture (packet op body) s)) := by
  rw [pollRoute, if_pos]
  rw [length_packet, capture_packet_read op body s 11 (by decide) (by omega)]
  exact ⟨hlen, hver⟩

/-- Settles O48: the reply is the only thing the route does to the captured packet's state. -/
theorem artPollIsAnswered : Obligations.ArtPollIsAnswered := by
  intro s sender body hbody hlen hver
  have hfit : (packet 0x2000#16 body).length ≤ Config.rxCap := by rwa [length_packet]
  have hframe := pollRoute_frame (packet 0x2000#16 body).length sender (capture (packet 0x2000#16 body) s)
  have hroute := pollRoute_of_accepted (op := 0x2000#16) hlen hver sender s
  rw [hroute] at hframe
  rw [exec_artPoll, receive_of_fits hfit, hroute]
  refine ⟨_, rfl, ?_, ?_, by simp, by simp, by simp, hframe.captured, hframe.ingestFrame, ⟨rfl, rfl⟩⟩
  · exact { replied_pollReply sender (capture (packet 0x2000#16 body) s) with }
  · exact { pollReply_mergeFrame sender (capture (packet 0x2000#16 body) s) with }

end Sys2Proof.Machine
end

section
/-! The result bit of an `INGEST` and its verdict (R131, R132). -/

namespace Sys2Proof.Machine

/-! ## The bit of a handler -/

/-- The verdicts with `RESULT = 1` are the four of R132. -/
theorem Verdict.changed_iff (v : Verdict) :
    v.changed = true
      ↔ v = .dmxAcceptedA ∨ v = .dmxAcceptedB ∨ v = .dmxAcceptedSingle ∨ v = .addressCleared := by
  cases v <;> simp [Verdict.changed]

theorem slotTakes_iff {slot : Option Ip} {sender : Ip} :
    slotTakes slot sender = true ↔ slot = none ∨ slot = some sender := by
  simp [slotTakes]

theorem resultDatum_eq_ofNat (r : Bool) : resultDatum r = BitVec.ofNat 32 r.toNat := by
  cases r <;> rfl

/-- The HTP step accepts a frame exactly where a slot takes its sender (R144 to R148). -/
theorem htpStep_fst (sender : Ip) (n : Nat) (s : State) :
    (htpStep sender n s).1 = (slotTakes s.srcA sender || slotTakes s.srcB sender) := by
  rcases htpStep_cases sender n s with ⟨hA, h⟩ | ⟨_, _, _, hB, h⟩ | ⟨x, y, hA, hx, hB, hy, h⟩ <;> rw [h]
  · rw [slotTakes_iff.2 hA, Bool.true_or]
  · rw [slotTakes_iff.2 hB, Bool.or_true]
  · simp [slotTakes, hA, hB, hx, hy]

/-- The single-source step accepts a frame exactly where source A takes its sender (R150, R151). -/
theorem singleStep_fst (sender : Ip) (n : Nat) (s : State) :
    (singleStep sender n s).1 = slotTakes s.srcA sender := by
  rcases singleStep_cases sender n s with ⟨hA, _, h⟩ | ⟨x, hA, hx, h⟩ <;> rw [h]
  · exact (slotTakes_iff.2 hA).symm
  · simp [slotTakes, hA, hx]

/-- The ArtDMX handler's bit is its verdict's (R140 to R151). -/
theorem dmxHandler_fst (len : Nat) (sender : Ip) (s : State) :
    (dmxHandler len sender s).1 = (dmxVerdict len sender s).changed := by
  unfold dmxHandler dmxVerdict
  dsimp only
  split_ifs with hshort hmatch htrunc hslots hen hA hB hA
  · rfl
  · rfl
  · rfl
  · rfl
  · rw [htpStep_fst, hA]
    rfl
  · rw [htpStep_fst, hB, Bool.or_true]
    rfl
  · rw [htpStep_fst, Bool.eq_false_of_not_eq_true hA, Bool.eq_false_of_not_eq_true hB]
    rfl
  · rw [singleStep_fst, hA]
    rfl
  · rw [singleStep_fst, Bool.eq_false_of_not_eq_true hA]
    rfl

/-- Clear-buffer is the one command with result 1 (R184). -/
theorem runCommand_fst (s : State) : (runCommand s).1 = decide (s.rx.read 106 = 0x90#8) := by
  rcases runCommand_cases s with ⟨hc, h⟩ | ⟨hc, h⟩ | ⟨_, hc, h⟩ <;> rw [h]
  · rw [hc]
    rfl
  · rw [hc]
    rfl
  · exact (decide_eq_false hc).symm

/-- An ArtPoll packet has result 0 (R128). -/
theorem pollRoute_fst (len : Nat) (sender : Ip) (s : State) : (pollRoute len sender s).1 = false := by
  rcases pollRoute_cases len sender s with h | ⟨_, _, h⟩ <;> rw [h]

/-- An ArtAddress packet that passes the checks has its command's result (R129). -/
theorem addressRoute_fst_of_accepted {len : Nat} {s : State}
    (hok : Config.addressMinLen ≤ len ∧ Config.minVersion.toNat ≤ (s.rx.read 11).toNat) (sender : Ip) :
    (addressRoute len sender s).1 = decide (s.rx.read 106 = 0x90#8) := by
  rw [addressRoute, addressRouteWith, if_pos hok]
  exact runCommand_fst (applyFields s)

/-- A captured packet's bit is its verdict's (R131, R132). -/
theorem handle_fst (len : Nat) (sender : Ip) (s : State) :
    (handle len sender s).1 = (capturedVerdict len sender s).changed := by
  unfold handle capturedVerdict
  rcases validate s.rx len with ⟨_ | _, op⟩
  · rfl
  · simp only [if_true, Bool.true_eq_false, if_false, dispatch]
    split_ifs with hdmx hpoll _ haddr hok hclear
    · exact dmxHandler_fst len sender s
    · exact pollRoute_fst len sender s
    · exact pollRoute_fst len sender s
    · rw [addressRoute_fst_of_accepted hok, decide_eq_true hclear]
      rfl
    · rw [addressRoute_fst_of_accepted hok, decide_eq_false hclear]
      rfl
    · rw [addressRoute, addressRouteWith, if_neg hok]
      rfl
    · rfl

/-! ## The bit of an `INGEST` -/

/-- A received datagram reports its verdict's bit; no handler reads the port (R131, R132). -/
theorem reported_receive {s : State} {d : Datagram} {rest : List Datagram} (hport : s.port = d :: rest) :
    Reported (ingestVerdict true s).changed (receive handle d.sender d.bytes { s with port := rest }) := by
  rw [ingestVerdict_present hport]
  rcases receive_cases handle d.sender d.bytes { s with port := rest } with ⟨hover, h⟩ | ⟨hfit, h⟩ <;> rw [h]
  · rw [if_pos hover]
    exact ⟨rfl, rfl⟩
  · have hbit : (handle d.bytes.length d.sender (capture d.bytes { s with port := rest })).1
        = (capturedVerdict d.bytes.length d.sender (capture d.bytes s)).changed := handle_fst ..
    rw [if_neg (Nat.not_lt.2 hfit), ← hbit]
    exact ⟨rfl, rfl⟩

/-- Without a datagram the verdict is `NoDatagram` (R121, R132). -/
theorem ingestVerdict_of_none {s : State} {present : Bool} (h : present = false ∨ s.port = []) :
    ingestVerdict present s = .noDatagram := by
  rcases h with rfl | hempty
  · exact ingestVerdict_absent s
  · exact ingestVerdict_empty hempty present

/-- A completed `INGEST` reports its verdict's bit (R131, R132). -/
theorem reported_of_exec_ingest {s t : State} {present : Bool} (h : exec (.ingest present) s = .next t) :
    Reported (ingestVerdict present s).changed t := by
  rcases execIngest_cases present s with ⟨hnone, he⟩ | ⟨_, _, _, _, _, he⟩ | ⟨d, rest, rfl, hport, _, he⟩
  · obtain rfl := Host.Outcome.next.inj (he.symm.trans h)
    rw [ingestVerdict_of_none hnone]
    exact ⟨rfl, rfl⟩
  · exact absurd (he.symm.trans h) nofun
  · obtain rfl := Host.Outcome.next.inj (he.symm.trans h)
    exact reported_receive hport

/-- Settles O32: the bit of an `INGEST` is its verdict's, and the read datum is the bit. -/
theorem resultIsOneExactlyForTheChangedVerdicts : Obligations.ResultIsOneExactlyForTheChangedVerdicts := by
  intro s t present hexec
  obtain ⟨hresult, hrdata⟩ := reported_of_exec_ingest hexec
  refine ⟨?_, ?_⟩
  · rw [hresult, Verdict.changed_iff]
  · rw [hresult, hrdata]
    exact resultDatum_eq_ofNat _

end Sys2Proof.Machine
end

section
/-! The merge engine (R140 to R155): the enable, the drops of an ArtDMX packet, and what an accepted frame does in
either mode. -/

namespace Sys2Proof.Machine

/-! ## The enable -/

/-- A zeroed buffer reads 0 below 512 and as before from there on (R9). -/
theorem Memory.read_zeroRange_universe (m : Memory) (i : Nat) :
    (m.zeroRange 0 512).read i = if i < 512 then 0#8 else m.read i := by
  simp [read_zeroRange]

/-- Settles O13, by the equations of the enable in either mode. -/
theorem enableStartsAFreshMerge : Obligations.EnableStartsAFreshMerge := by
  refine ⟨fun s h => ?_, fun s => enableHtp_of_enabled, fun s _ => enableHtp_of_enabled (enableHtp_htpEn s)⟩
  have hbelow {i : Nat} (hi : i < 512) (m : Memory) : (m.zeroRange 0 512).read i = 0#8 :=
    (m.read_zeroRange_universe i).trans (if_pos hi)
  have habove {i : Nat} (hi : 512 ≤ i) (m : Memory) : (m.zeroRange 0 512).read i = m.read i :=
    (m.read_zeroRange_universe i).trans (if_neg (Nat.not_lt.2 hi))
  exact ⟨_, _, _, enableHtp_of_disabled h, fun i hi => ⟨hbelow hi s.a, hbelow hi s.b, hbelow hi s.out⟩,
    fun i hi => ⟨habove hi s.a, habove hi s.b, habove hi s.out⟩⟩

/-! ## The reception of an ArtDMX packet -/

theorem exec_artDMX (sender : Ip) (body : List Byte) (s : State) :
    exec (.artDMX sender body) s = .next (receive dmxHandler sender (packet 0x5000#16 body) s) := rfl

/-- A packet that does not fit the acceptance conditions is not handled (R140 to R142). -/
theorem dmxHandler_of_not_fits {s : State} {body : List Byte} (hfit : 10 + body.length ≤ Config.rxCap)
    (h : ¬FrameFits body s) (sender : Ip) :
    dmxHandler (packet 0x5000#16 body).length sender (capture (packet 0x5000#16 body) s)
      = (false, capture (packet 0x5000#16 body) s) := by
  rcases dmxHandler_cases (packet 0x5000#16 body).length sender (capture (packet 0x5000#16 body) s)
    with hdrop | ⟨hwhole, hslots, hmatch, _⟩
  · exact hdrop
  · rw [length_packet] at hwhole
    have hheader : 18 ≤ 10 + body.length := by omega
    rw [rxSlotCount_capture _ _ _ hheader] at hwhole hslots
    obtain ⟨hlo, hhi⟩ := (addressMatches_capture _ _ _ hheader).1 hmatch
    exact absurd ⟨hfit, hheader, hlo, hhi, hwhole, hslots⟩ h

/-- Settles O41: every reason contradicts an acceptance condition. -/
theorem rejectedFramesChangeNothing : Obligations.RejectedFramesChangeNothing := by
  intro s sender body hfit hreason
  have hrej : ¬FrameFits body s := by
    rintro ⟨_, hheader, hlo, hhi, hwhole, hslots⟩
    rcases hreason with h | h | h | h | h
    · exact h.not_ge hheader
    · exact h hlo
    · exact h hhi
    · exact h.not_ge hwhole
    · exact h.not_ge hslots
  rw [exec_artDMX, receive_of_ignored (by rwa [length_packet]) (dmxHandler_of_not_fits hfit hrej sender)]

/-- A frame that fits the acceptance conditions is received by what the handler does with the captured packet. -/
theorem exec_artDMX_of_handler {s : State} {body : List Byte} {sender : Ip} {p : Bool × State}
    (h : FrameFits body s)
    (hp : dmxHandler (packet 0x5000#16 body).length sender (capture (packet 0x5000#16 body) s) = p) :
    exec (.artDMX sender body) s = .next (finish p) := by
  rw [exec_artDMX, receive_of_fits (by rw [length_packet]; exact h.fits), hp]

/-- What every handled ArtDMX packet leaves behind: the capture, the result, and all but the merge engine as before. -/
theorem dmxHandler_received {s : State} {bytes : List Byte} {sender : Ip} {p : Bool × State}
    (hp : dmxHandler bytes.length sender (capture bytes s) = p) :
    Captured bytes s (finish p) ∧ Reported p.1 (finish p) ∧ IngestFrame s (finish p) ∧ AddressFrame s (finish p) := by
  subst hp
  have hframe := dmxHandler_frame bytes.length sender (capture bytes s)
  have haddr := dmxHandler_addressFrame bytes.length sender (capture bytes s)
  exact ⟨hframe.captured, ⟨rfl, rfl⟩, hframe.ingestFrame, { haddr with }⟩

/-! ## The step of either mode, by the source slots -/

/-- A frame that source A takes in HTP mode (R144, R145). -/
theorem htpStep_of_takenByA {s : State} {sender : Ip} (h : s.srcA = none ∨ s.srcA = some sender) (n : Nat) :
    htpStep sender n s = (true, frameA n (bindA sender s)) := by
  rcases htpStep_cases sender n s with ⟨_, he⟩ | ⟨x, hA, hx, _⟩ | ⟨x, y, hA, hx, _⟩
  · exact he
  · simp [hA, hx] at h
  · simp [hA, hx] at h

/-- A frame that source A leaves to source B in HTP mode (R146, R147). -/
theorem htpStep_of_takenByB {s : State} {sender other : Ip} (hA : s.srcA = some other) (hne : other ≠ sender)
    (hB : s.srcB = none ∨ s.srcB = some sender) (n : Nat) :
    htpStep sender n s = (true, frameB n (bindB sender s)) := by
  rcases htpStep_cases sender n s with ⟨h, _⟩ | ⟨_, _, _, _, he⟩ | ⟨_, y, _, _, hy, hney, _⟩
  · simp [hA, hne] at h
  · exact he
  · simp [hy, hney] at hB

/-- A frame of a third sender in HTP mode (R148). -/
theorem htpStep_of_thirdSender {s : State} {sender x y : Ip} (hA : s.srcA = some x) (hx : x ≠ sender)
    (hB : s.srcB = some y) (hy : y ≠ sender) (n : Nat) : htpStep sender n s = (false, s) := by
  rcases htpStep_cases sender n s with ⟨h, _⟩ | ⟨_, _, _, h, _⟩ | ⟨_, _, _, _, _, _, he⟩
  · simp [hA, hx] at h
  · simp [hB, hy] at h
  · exact he

/-- A frame that the one source of single-source mode takes (R150). -/
theorem singleStep_of_taken {s : State} {sender : Ip} (h : s.srcA = none ∨ s.srcA = some sender) (n : Nat) :
    singleStep sender n s = (true, frameSingle n (bindSingle sender s)) := by
  rcases singleStep_cases sender n s with ⟨_, _, he⟩ | ⟨x, hA, hx, _⟩
  · exact he
  · simp [hA, hx] at h

/-- A frame of another sender in single-source mode (R151). -/
theorem singleStep_of_otherSender {s : State} {sender x : Ip} (hA : s.srcA = some x) (hx : x ≠ sender) (n : Nat) :
    singleStep sender n s = (false, s) := by
  rcases singleStep_cases sender n s with ⟨h, _⟩ | ⟨_, _, _, he⟩
  · simp [hA, hx] at h
  · exact he

theorem dmxHandler_of_fits_htp {s : State} {body : List Byte} (h : FrameFits body s) (hen : s.htpEn = true)
    (sender : Ip) :
    dmxHandler (packet 0x5000#16 body).length sender (capture (packet 0x5000#16 body) s)
      = htpStep sender (bodySlots body) (capture (packet 0x5000#16 body) s) :=
  (dmxHandler_of_fits h sender).trans (if_pos hen)

theorem dmxHandler_of_fits_single {s : State} {body : List Byte} (h : FrameFits body s) (hoff : s.htpEn = false)
    (sender : Ip) :
    dmxHandler (packet 0x5000#16 body).length sender (capture (packet 0x5000#16 body) s)
      = singleStep sender (bodySlots body) (capture (packet 0x5000#16 body) s) :=
  (dmxHandler_of_fits h sender).trans (if_neg (by simp [hoff]))

/-- Settles O40: the step of either mode ignores the frame. -/
theorem otherSendersAreDropped : Obligations.OtherSendersAreDropped := by
  intro s sender x body hfits hA hx
  have hfit : (packet 0x5000#16 body).length ≤ Config.rxCap := by rw [length_packet]; exact hfits.fits
  refine ⟨fun hen ⟨y, hB, hy⟩ => ?_, fun hoff => ?_⟩
  · have hdrop := (dmxHandler_of_fits_htp hfits hen sender).trans
      (htpStep_of_thirdSender (s := capture (packet 0x5000#16 body) s) hA hx hB hy _)
    rw [exec_artDMX, receive_of_ignored hfit hdrop]
  · have hdrop := (dmxHandler_of_fits_single hfits hoff sender).trans
      (singleStep_of_otherSender (s := capture (packet 0x5000#16 body) s) hA hx _)
    rw [exec_artDMX, receive_of_ignored hfit hdrop]

/-! ## The bindings -/

theorem bindA_srcA_of_taken {s : State} {sender : Ip} (h : s.srcA = none ∨ s.srcA = some sender) :
    (bindA sender s).srcA = some sender := by
  unfold bindA
  split
  case isTrue => rfl
  case isFalse hbound => exact h.resolve_left hbound

theorem bindB_srcB_of_taken {s : State} {sender : Ip} (h : s.srcB = none ∨ s.srcB = some sender) :
    (bindB sender s).srcB = some sender := by
  unfold bindB
  split
  case isTrue => rfl
  case isFalse hbound => exact h.resolve_left hbound

theorem bindSingle_srcA_of_taken {s : State} {sender : Ip} (h : s.srcA = none ∨ s.srcA = some sender) :
    (bindSingle sender s).srcA = some sender := by
  unfold bindSingle
  split
  case isTrue => rfl
  case isFalse hbound => exact h.resolve_left hbound

/-- Binding A zeroes `B`; a bound A leaves it (R144). -/
theorem bindA_b_read (sender : Ip) (s : State) (i : Nat) :
    (bindA sender s).b.read i = if s.srcA = none ∧ i < 512 then 0#8 else s.b.read i := by
  by_cases h : s.srcA = none
  · rw [bindA, if_pos h]
    simp only [h, true_and]
    exact Memory.read_zeroRange_universe s.b i
  · rw [bindA, if_neg h, if_neg fun hc => h hc.1]

/-! ## The handler of an accepted frame -/

theorem dmxHandler_of_takenByA {s : State} {body : List Byte} {sender : Ip} (h : FrameFits body s)
    (hen : s.htpEn = true) (hA : s.srcA = none ∨ s.srcA = some sender) :
    dmxHandler (packet 0x5000#16 body).length sender (capture (packet 0x5000#16 body) s)
      = (true, frameA (bodySlots body) (bindA sender (capture (packet 0x5000#16 body) s))) :=
  (dmxHandler_of_fits_htp h hen sender).trans
    (htpStep_of_takenByA (s := capture (packet 0x5000#16 body) s) hA _)

theorem dmxHandler_of_takenByB {s : State} {body : List Byte} {sender other : Ip} (h : FrameFits body s)
    (hen : s.htpEn = true) (hA : s.srcA = some other) (hne : other ≠ sender)
    (hB : s.srcB = none ∨ s.srcB = some sender) :
    dmxHandler (packet 0x5000#16 body).length sender (capture (packet 0x5000#16 body) s)
      = (true, frameB (bodySlots body) (bindB sender (capture (packet 0x5000#16 body) s))) :=
  (dmxHandler_of_fits_htp h hen sender).trans
    (htpStep_of_takenByB (s := capture (packet 0x5000#16 body) s) hA hne hB _)

theorem dmxHandler_of_takenSingle {s : State} {body : List Byte} {sender : Ip} (h : FrameFits body s)
    (hoff : s.htpEn = false) (hA : s.srcA = none ∨ s.srcA = some sender) :
    dmxHandler (packet 0x5000#16 body).length sender (capture (packet 0x5000#16 body) s)
      = (true, frameSingle (bodySlots body) (bindSingle sender (capture (packet 0x5000#16 body) s))) :=
  (dmxHandler_of_fits_single h hoff sender).trans
    (singleStep_of_taken (s := capture (packet 0x5000#16 body) s) hA _)

/-- In either mode a frame that source A takes binds it, keeps source B and reports 1 (R144, R150). -/
theorem exec_artDMX_of_takenByA {s : State} {body : List Byte} {sender : Ip} (h : FrameFits body s)
    (hA : s.srcA = none ∨ s.srcA = some sender) :
    ∃ t, exec (.artDMX sender body) s = .next t ∧ t.srcA = some sender ∧ t.srcB = s.srcB ∧ t.result = true := by
  cases hen : s.htpEn with
  | true =>
    exact ⟨_, exec_artDMX_of_handler h (dmxHandler_of_takenByA h hen hA), bindA_srcA_of_taken hA,
      bindA_srcB sender _, rfl⟩
  | false =>
    exact ⟨_, exec_artDMX_of_handler h (dmxHandler_of_takenSingle h hen hA), bindSingle_srcA_of_taken hA,
      bindSingle_srcB sender _, rfl⟩

/-! ## The levels of a frame -/

/-- A buffer after the levels of a captured frame: the packet's levels, then what was there (R145, R147). -/
theorem Memory.read_writeLevels {body : List Byte} {n : Nat} (hwhole : 18 + n ≤ 10 + body.length) (op : Opcode)
    (s : State) (m : Memory) (i : Nat) :
    (m.writeBytes 0 (rxLevels (capture (packet op body) s).rx n)).read i
      = if i < n then bodyLevel body i else m.read i := by
  rw [read_writeBytes]
  simp only [length_rxLevels, Nat.zero_le, true_and, Nat.zero_add, Nat.sub_zero]
  split
  case isTrue hi => exact rxLevels_capture op body s n i hwhole hi
  case isFalse => rfl

/-- `OUT_SLOTS` is the larger count, `OUT` below it the larger level of the two sources, and above it the earlier output
`out` (R149). -/
structure Merged (out : Memory) (t : State) : Prop where
  outSlots : t.outSlots = max t.slotsA t.slotsB
  below : ∀ i, i < t.outSlots → (t.out.read i).toNat = max (t.a.read i).toNat (t.b.read i).toNat
  above : ∀ i, t.outSlots ≤ i → t.out.read i = out.read i

theorem merged_merge (s : State) : Merged s.out (merge s) where
  outSlots := rfl
  below i hi := by
    have hmax : i < max s.slotsA s.slotsB := hi
    rw [read_merge_out, if_pos hmax, maxLevel_toNat]
    rfl
  above i hi := by
    have hmax : ¬i < max s.slotsA s.slotsB := Nat.not_lt.2 hi
    rw [read_merge_out, if_neg hmax]

theorem merged_frameA (n : Nat) (s : State) : Merged s.out (frameA n s) :=
  merged_merge { s with a := s.a.writeBytes 0 (rxLevels s.rx n), slotsA := n }

theorem merged_frameB (n : Nat) (s : State) : Merged s.out (frameB n s) :=
  merged_merge { s with b := s.b.writeBytes 0 (rxLevels s.rx n), slotsB := n }

/-! ## The accepted frame -/

/-- Settles O38: source A takes the frame, then the merge runs. -/
theorem sourceAFrameIsMerged : Obligations.SourceAFrameIsMerged := by
  intro s sender body hfits hen hA
  have hp := dmxHandler_of_takenByA hfits hen hA
  have hmerged := merged_frameA (bodySlots body) (bindA sender (capture (packet 0x5000#16 body) s))
  rw [bindA_out] at hmerged
  refine ⟨_, exec_artDMX_of_handler hfits hp, ?srcA, ?srcB, ?a, ?b, rfl, ?slotsB, hmerged.outSlots, hmerged.below,
    hmerged.above, dmxHandler_received hp⟩
  case srcA => exact bindA_srcA_of_taken hA
  case srcB => exact bindA_srcB sender _
  case a =>
    intro i
    rw [finish_a, frameA_a, bindA_rx, bindA_a]
    exact Memory.read_writeLevels hfits.whole _ s s.a i
  case b => exact bindA_b_read sender (capture (packet 0x5000#16 body) s)
  case slotsB => exact bindA_slotsB sender _

/-- Settles O39: source B takes the frame, then the merge runs. -/
theorem sourceBFrameIsMerged : Obligations.SourceBFrameIsMerged := by
  intro s sender other body hfits hen hA hne hB
  have hp := dmxHandler_of_takenByB hfits hen hA hne hB
  have hmerged := merged_frameB (bodySlots body) (bindB sender (capture (packet 0x5000#16 body) s))
  rw [bindB_out] at hmerged
  refine ⟨_, exec_artDMX_of_handler hfits hp, ?srcA, ?srcB, ?a, ?b, ?slotsA, rfl, hmerged.outSlots, hmerged.below,
    hmerged.above, dmxHandler_received hp⟩
  case srcA => exact bindB_srcA sender _
  case srcB => exact bindB_srcB_of_taken hB
  case a => exact bindB_a sender _
  case b =>
    intro i
    rw [finish_b, frameB_b, bindB_rx, bindB_b]
    exact Memory.read_writeLevels hfits.whole _ s s.b i
  case slotsA => exact bindB_slotsA sender _

/-- `OUT` after a single-source copy of a captured frame (R150). -/
theorem frameSingle_out_read {body : List Byte} {n : Nat} (hwhole : 18 + n ≤ 10 + body.length) (op : Opcode)
    (sender : Ip) (s : State) (i : Nat) :
    (frameSingle n (bindSingle sender (capture (packet op body) s))).out.read i
      = if i < n then bodyLevel body i else if i < 512 then 0#8 else s.out.read i := by
  rw [frameSingle_out, bindSingle_rx, bindSingle_out, Memory.read_zeroRange, Memory.read_writeLevels hwhole,
    capture_out]
  by_cases hi : i < n
  · rw [if_neg (by omega), if_pos hi, if_pos hi]
  · simp only [Nat.not_lt.1 hi, true_and, if_neg hi]

/-- Settles O37: the one source takes the frame. -/
theorem singleSourceFrameIsCopied : Obligations.SingleSourceFrameIsCopied := by
  intro s sender body hfits hoff hA
  have hp := dmxHandler_of_takenSingle hfits hoff hA
  have hout := frameSingle_out_read hfits.whole 0x5000#16 sender s
  refine ⟨_, exec_artDMX_of_handler hfits hp, ?srcA, ?srcB, ?levels, ?zeros, ?beyond, rfl, rfl, ?slotsB, ?a, ?b,
    dmxHandler_received hp⟩
  case srcA => exact bindSingle_srcA_of_taken hA
  case srcB => exact bindSingle_srcB sender _
  case levels =>
    intro i hi
    rw [finish_out, hout, if_pos hi]
  case zeros =>
    intro i hlo hhi
    rw [finish_out, hout, if_neg (Nat.not_lt.2 hlo), if_pos hhi]
    rfl
  case beyond =>
    intro i hi
    have hslots := hfits.slots
    rw [finish_out, hout, if_neg (by omega), if_neg (by omega)]
  case slotsB => exact bindSingle_slotsB sender _
  case a => exact bindSingle_a sender _
  case b => exact bindSingle_b sender _

/-! ## The maximum after an accepted frame (C8) -/

/-- `OUT_SLOTS` is the larger count and, in HTP mode, `OUT` below it the larger level. -/
def HoldsMaximum (htpEn : Bool) (t : State) : Prop :=
  t.outSlots = max t.slotsA t.slotsB
    ∧ (htpEn = true → ∀ i, i < t.outSlots → (t.out.read i).toNat = max (t.a.read i).toNat (t.b.read i).toNat)

theorem Merged.holdsMaximum {out : Memory} {t : State} (h : Merged out t) (htpEn : Bool) : HoldsMaximum htpEn t :=
  ⟨h.outSlots, fun _ => h.below⟩

/-- A frame that the handler accepts leaves the maximum; in single-source mode no count of B is in the way. -/
theorem dmxHandler_holdsMaximum {len : Nat} {sender : Ip} {s : State} (hsingle : s.htpEn = false → s.slotsB = 0)
    (hbit : (dmxHandler len sender s).1 = true) : HoldsMaximum s.htpEn (dmxHandler len sender s).2 := by
  rcases dmxHandler_cases len sender s with h | ⟨_, _, _, ⟨hen, h⟩ | ⟨hoff, h⟩⟩ <;> rw [h] at hbit ⊢
  · cases hbit
  · rcases htpStep_cases sender (rxSlotCount s.rx) s with ⟨_, h⟩ | ⟨_, _, _, _, h⟩ | ⟨_, _, _, _, _, _, h⟩ <;>
      rw [h] at hbit ⊢
    · exact (merged_frameA _ _).holdsMaximum _
    · exact (merged_frameB _ _).holdsMaximum _
    · cases hbit
  · rcases singleStep_cases sender (rxSlotCount s.rx) s with ⟨_, _, h⟩ | ⟨_, _, _, h⟩ <;> rw [h] at hbit ⊢
    · refine ⟨?_, fun hen => absurd (hoff.symm.trans hen) Bool.false_ne_true⟩
      simp [hsingle hoff]
    · cases hbit

/-- The three verdicts of an accepted ArtDMX frame (R132). -/
def Verdict.IsAcceptedFrame (v : Verdict) : Prop := v = .dmxAcceptedA ∨ v = .dmxAcceptedB ∨ v = .dmxAcceptedSingle

theorem Verdict.IsAcceptedFrame.changed {v : Verdict} (h : v.IsAcceptedFrame) : v.changed = true := by
  rcases h with rfl | rfl | rfl <;> rfl

/-- No ArtAddress packet has the verdict of an accepted frame. -/
theorem not_isAcceptedFrame_of_address {len : Nat} {s : State} (h : validate s.rx len = (true, Config.opAddress))
    (sender : Ip) : ¬(capturedVerdict len sender s).IsAcceptedFrame := by
  have hv : capturedVerdict len sender s
      = if Config.addressMinLen ≤ len ∧ Config.minVersion.toNat ≤ (s.rx.read 11).toNat then
          if s.rx.read 106 = Config.cmdClearBuffer then .addressCleared else .addressApplied
        else .addressRejected := by
    rw [capturedVerdict, h]
    rfl
  rw [hv]
  split_ifs <;> simp [Verdict.IsAcceptedFrame]

/-- A captured packet with the verdict of an accepted frame is one that the ArtDMX handler accepts. -/
theorem handle_of_acceptedFrame {len : Nat} {sender : Ip} {s : State}
    (h : (capturedVerdict len sender s).IsAcceptedFrame) :
    handle len sender s = dmxHandler len sender s ∧ (dmxHandler len sender s).1 = true := by
  have hbit : (handle len sender s).1 = true := (handle_fst len sender s).trans h.changed
  rcases handle_cases len sender s with he | he | ⟨hop, _⟩ | he
  · exact ⟨he, he ▸ hbit⟩
  · simp [he, pollRoute_fst] at hbit
  · exact absurd h (not_isAcceptedFrame_of_address hop sender)
  · simp [he] at hbit

/-- Settles O42: the verdict says that the ArtDMX handler accepts the captured packet. -/
theorem acceptedFramesLeaveTheMaximum : Obligations.AcceptedFramesLeaveTheMaximum := by
  intro s d rest hinv hport hlen hverdict
  have haccepted : (ingestVerdict true s).IsAcceptedFrame := hverdict
  rw [ingestVerdict_present hport] at haccepted
  split at haccepted
  case isTrue => simp [Verdict.IsAcceptedFrame] at haccepted
  case isFalse hfit =>
    obtain ⟨hhandle, hbit⟩ := handle_of_acceptedFrame (s := capture d.bytes { s with port := rest }) haccepted
    refine ⟨_, exec_ingest_of_cons hport hlen, ?_⟩
    rw [receive_of_fits (Nat.not_lt.1 hfit), hhandle]
    exact dmxHandler_holdsMaximum hinv.single_slotsB hbit

end Sys2Proof.Machine
end

section
/-! The commands of an accepted ArtAddress packet (R152, R153, R180 to R184), and the frame after a cancel-merge. -/

namespace Sys2Proof.Machine

/-! ## An accepted packet -/

/-- The state an accepted ArtAddress packet leaves: fields, command, reply and result (R129, R180). -/
def addressedState (command : State → Bool × State) (sender : Ip) (bytes : List Byte) (s : State) : State :=
  let p := command (applyFields (capture bytes s))
  finish (p.1, pollReply sender p.2)

/-- An ArtAddress packet that passes the checks is carried out (R129). -/
theorem receive_addressRouteWith_of_accepted {body : List Byte} (h : AddressAccepted body) (op : Opcode)
    (command : State → Bool × State) (sender : Ip) (s : State) :
    receive (addressRouteWith command) sender (packet op body) s
      = addressedState command sender (packet op body) s := by
  have hlen := h.length
  rw [receive_of_fits (by rw [length_packet]; exact h.fits), addressRouteWith, if_pos]
  · rfl
  · rw [length_packet, capture_packet_read op body s 11 (by decide) (by omega)]
    exact ⟨hlen, h.version⟩

/-- The fields read from the captured packet are the packet's (R180 to R183). -/
theorem fieldsApplied_capture {body : List Byte} (h : AddressAccepted body) (op : Opcode) (s : State) :
    FieldsApplied body s (applyFields (capture (packet op body) s)) := by
  have hlen := h.length
  have hread : ∀ i, 10 ≤ i → i < 107 → (capture (packet op body) s).rx.read i = bodyByte body i :=
    fun i hlo hhi => capture_packet_read op body s i hlo (by omega)
  refine ⟨?_, ?_, ?_⟩
  · rw [applyFields_net, netField_toNat, hread 12 (by decide) (by decide), capture_net]
  · rw [applyFields_univ, nibbleField_toNat, hread 100 (by decide) (by decide), capture_univ]
  · rw [applyFields_subnet, nibbleField_toNat, hread 104 (by decide) (by decide), capture_subnet]

/-- What a command of the ArtAddress handler leaves alone (R184). -/
structure CommandFrame (command : State → Bool × State) : Prop where
  handler : ∀ s, HandlerFrame s (command s).2
  address : ∀ s, AddressFrame s (command s).2

theorem cancelMerge_commandFrame : CommandFrame cancelMerge := by
  constructor <;> intro s <;> constructor <;> rfl

theorem clearBuffer_commandFrame : CommandFrame clearBuffer := by
  constructor <;> intro s <;> constructor <;> rfl

/-- What an accepted ArtAddress packet does whatever its command is: the fields, the reply, the capture, the frame and
the command's result. -/
theorem addressedState_carriedOut {command : State → Bool × State} (hc : CommandFrame command) {body : List Byte}
    (h : AddressAccepted body) (op : Opcode) (sender : Ip) (s : State) :
    FieldsApplied body s (addressedState command sender (packet op body) s)
      ∧ Replied sender s (addressedState command sender (packet op body) s)
      ∧ Captured (packet op body) s (addressedState command sender (packet op body) s)
      ∧ IngestFrame s (addressedState command sender (packet op body) s)
      ∧ Reported (command (applyFields (capture (packet op body) s))).1
          (addressedState command sender (packet op body) s) := by
  have hfields := fieldsApplied_capture h op s
  have hkeeps := hc.handler (applyFields (capture (packet op body) s))
  have haddr := hc.address (applyFields (capture (packet op body) s))
  have hreply := replied_pollReply sender (command (applyFields (capture (packet op body) s))).2
  have hframe := ((applyFields_frame (capture (packet op body) s)).trans hkeeps).trans (pollReply_frame sender _)
  refine ⟨⟨?net, ?univ, ?subnet⟩, ⟨hreply.paByte, ?others, ?tx⟩, hframe.captured, hframe.ingestFrame, ⟨rfl, rfl⟩⟩
  case net => exact (congrArg BitVec.toNat haddr.net).trans hfields.net
  case univ => exact (congrArg BitVec.toNat haddr.univ).trans hfields.univ
  case subnet => exact (congrArg BitVec.toNat haddr.subnet).trans hfields.subnet
  case others => exact fun i hi => (hreply.others i hi).trans (congrArg (Memory.read · i) haddr.tpl)
  case tx =>
    have htx := hreply.tx
    rw [haddr.tx, hkeeps.bcastEn, hkeeps.bcastIp] at htx
    exact htx

/-! ## The two commands -/

/-- Settles O45, by what cancel-merge writes. -/
theorem cancelMergeUnbindsBothSources : Obligations.CancelMergeUnbindsBothSources := by
  intro s sender front tail _ haccepted
  rw [exec_artAddressCancelMerge, receive_addressRouteWith_of_accepted haccepted]
  exact ⟨_, rfl, rfl, rfl, rfl, rfl, rfl, rfl, rfl, rfl,
    addressedState_carriedOut cancelMerge_commandFrame haccepted 0x6000#16 sender s⟩

/-- Settles O46, by what clear-buffer writes. -/
theorem clearBufferBlacksOut : Obligations.ClearBufferBlacksOut := by
  intro s sender front tail _ haccepted
  rw [exec_artAddressClearBuffer, receive_addressRouteWith_of_accepted haccepted]
  have hout := Memory.read_zeroRange_universe s.out
  refine ⟨_, rfl, rfl, fun i hi => ?_, fun i hi => ?_, rfl, rfl, rfl, rfl, rfl, rfl,
    addressedState_carriedOut clearBuffer_commandFrame haccepted 0x6000#16 sender s⟩
  · exact (hout i).trans (if_pos hi)
  · exact (hout i).trans (if_neg (Nat.not_lt.2 hi))

/-- Settles O58: a cancel-merge unbinds both sources, so source A takes the next frame in either mode. -/
theorem cancelMergeReseedsSourceA : Obligations.CancelMergeReseedsSourceA := by
  intro s t sender z front tail body hfront haccepted hcancel hfits
  obtain ⟨t', hexec, hA, hB, _⟩ := cancelMergeUnbindsBothSources s sender front tail hfront haccepted
  obtain rfl := Host.Outcome.next.inj (hexec.symm.trans hcancel)
  obtain ⟨u, hu, huA, huB, hresult⟩ := exec_artDMX_of_takenByA (sender := z) hfits (.inl hA)
  exact ⟨u, hu, huA, huB.trans hB, hresult⟩

end Sys2Proof.Machine
end

section
/-! The command byte of an ArtAddress packet (R90, R184): the command rows are the ArtAddress row of the same packet, and
what an accepted packet does by its command. -/

namespace Sys2Proof.Machine

/-! ## The command of a byte -/

/-- The meaning of a command byte; `runCommand` is that of the packet in `RX` (`runCommand_eq_commandOf`, R184). -/
def commandOf (c : Byte) : State → Bool × State :=
  if c = 0x01#8 then cancelMerge else if c = 0x90#8 then clearBuffer else noCommand

theorem commandOf_cancel : commandOf 0x01#8 = cancelMerge := rfl

theorem commandOf_clear : commandOf 0x90#8 = clearBuffer := rfl

theorem commandOf_of_other {c : Byte} (hcancel : c ≠ 0x01#8) (hclear : c ≠ 0x90#8) : commandOf c = noCommand := by
  rw [commandOf, if_neg hcancel, if_neg hclear]

theorem runCommand_eq_commandOf (s : State) : runCommand s = commandOf (s.rx.read 106) s := by
  rcases runCommand_cases s with ⟨hc, h⟩ | ⟨hc, h⟩ | ⟨hcancel, hclear, h⟩
  · rw [h, hc, commandOf_cancel]
  · rw [h, hc, commandOf_clear]
  · rw [h, commandOf_of_other hcancel hclear, noCommand_eq]

/-- Clear-buffer is the one command byte with result 1 (R184). -/
theorem commandOf_fst (c : Byte) (s : State) : (commandOf c s).1 = decide (c = 0x90#8) := by
  by_cases hcancel : c = 0x01#8
  · subst hcancel
    rfl
  · by_cases hclear : c = 0x90#8
    · subst hclear
      rfl
    · rw [commandOf_of_other hcancel hclear, decide_eq_false hclear, noCommand_eq]

theorem noCommand_commandFrame : CommandFrame noCommand :=
  ⟨HandlerFrame.refl, AddressFrame.refl⟩

theorem commandOf_commandFrame (c : Byte) : CommandFrame (commandOf c) := by
  unfold commandOf
  split_ifs
  · exact cancelMerge_commandFrame
  · exact clearBuffer_commandFrame
  · exact noCommand_commandFrame

/-! ## The command rows (R90) -/

/-- The ArtAddress row of a packet with a command byte runs the command of that byte, read through `RX` (R184). -/
theorem exec_artAddress_commandOf {body : List Byte} (hlen : 107 ≤ 10 + body.length) (sender : Ip) (s : State) :
    exec (.artAddress sender body) s
      = .next (receive (addressRouteWith (commandOf (bodyByte body 106))) sender (packet 0x6000#16 body) s) := by
  have hread : (applyFields (capture (packet 0x6000#16 body) s)).rx.read 106 = bodyByte body 106 :=
    capture_packet_read 0x6000#16 body s 106 (by decide) (by omega)
  rw [exec_artAddress, receive_congr]
  rw [addressRouteWith, addressRouteWith, runCommand_eq_commandOf, hread]

/-- The row of a command byte runs the command of that byte (R90, R184). -/
theorem exec_of_decodeCommand {len : BitVec 16} {sender : Ip} {front : List Byte} (hfront : front.length = 96)
    {c : Byte} {tail : List Byte} {i : Instr}
    (h : decodeCommand ⟨len, sender, addressPacket front c tail⟩ = .ok i) (s : State) :
    exec i s
      = .next (receive (addressRouteWith (commandOf c)) sender (packet 0x6000#16 (front ++ c :: tail)) s) := by
  rw [decodeCommand_addressPacket len sender hfront] at h
  split_ifs at h with hcancel hclear <;> obtain rfl := Except.ok.inj h
  · rw [exec_artAddressCancelMerge, hcancel, commandOf_cancel]
  · rw [exec_artAddressClearBuffer, hclear, commandOf_clear]
  · rw [exec_artAddressNoCommand, commandOf_of_other hcancel hclear]

/-- A datagram with a command row is an ArtAddress packet with a whole front and a command byte (R90). -/
theorem addressPacket_of_decodeCommand {d : Datagram} {i : Instr} (h : decodeCommand d = .ok i) :
    ∃ front c tail, front.length = 96 ∧ d.bytes = addressPacket front c tail := by
  rw [decodeCommand] at h
  split at h
  case isFalse => cases h
  case isTrue hheader =>
    obtain ⟨hten, hmagic, hop⟩ := hheader
    split at h
    case isFalse => cases h
    case isTrue hlen =>
      have hbody : 97 ≤ (d.bytes.drop 10).length := by
        rw [List.length_drop]
        exact Nat.le_sub_of_add_le hlen
      have hpacket := packet_of_header hten hmagic
      rw [hop, addressBody_split hbody] at hpacket
      exact ⟨_, _, _, List.length_take_of_le (by omega), hpacket⟩

/-- The command byte of an ArtAddress body lies right after its front. -/
theorem bodyByte_command {front : List Byte} (hfront : front.length = 96) (c : Byte) (tail : List Byte) :
    bodyByte (front ++ c :: tail) 106 = c := by
  rw [bodyByte, List.getD_append_right _ _ _ _ (by omega), hfront]
  rfl

/-- Settles O31: both rows receive the packet with the route of its command byte. -/
theorem commandRowsAgreeWithArtAddress : Obligations.CommandRowsAgreeWithArtAddress := by
  rintro s ⟨len, sender, bytes⟩ i hrow
  obtain ⟨front, c, tail, hfront, rfl⟩ := addressPacket_of_decodeCommand hrow
  have hdatagram : decodeDatagram ⟨len, sender, addressPacket front c tail⟩ = .artAddress sender (front ++ c :: tail) :=
    decodeDatagram_packet len sender 0x6000#16 (front ++ c :: tail)
  have hlen : 107 ≤ 10 + (front ++ c :: tail).length := by
    rw [List.length_append, List.length_cons]
    omega
  rw [exec_of_decodeCommand hfront hrow, hdatagram, exec_artAddress_commandOf hlen, bodyByte_command hfront]

/-! ## An accepted packet, by its command -/

/-- Fields, reply and result add no change of the merge state to the command's. -/
theorem mergeFrame_addressedState {command : State → Bool × State} {bytes : List Byte} {s u : State}
    (h : MergeFrame u (command (applyFields (capture bytes s))).2) (sender : Ip) :
    MergeFrame u (addressedState command sender bytes s) := { h with }

/-- An accepted packet with no command changes no merge state (R184). -/
theorem addressedState_noCommand_mergeFrame (sender : Ip) (bytes : List Byte) (s : State) :
    MergeFrame s (addressedState noCommand sender bytes s) :=
  mergeFrame_addressedState (by constructor <;> rfl) sender

/-- An accepted packet with cancel-merge unbinds both sources (R152). -/
theorem addressedState_cancelMerge_mergeFrame (sender : Ip) (bytes : List Byte) (s : State) :
    MergeFrame { s with srcA := none, srcB := none } (addressedState cancelMerge sender bytes s) :=
  mergeFrame_addressedState (by constructor <;> rfl) sender

/-- An accepted packet with clear-buffer unbinds source A, zeroes `OUT` and gives it 512 slots (R153). -/
theorem addressedState_clearBuffer_mergeFrame (sender : Ip) (bytes : List Byte) (s : State) :
    MergeFrame { s with srcA := none, outSlots := 512, out := s.out.zeroRange 0 512 }
      (addressedState clearBuffer sender bytes s) :=
  mergeFrame_addressedState (by constructor <;> rfl) sender

/-- Settles O44: the row of no command has fields and reply, and the merge engine's frame. -/
theorem noCommandChangesNoMergeState : Obligations.NoCommandChangesNoMergeState := by
  intro s sender front c tail _ haccepted _ _
  rw [exec_artAddressNoCommand, receive_addressRouteWith_of_accepted haccepted]
  obtain ⟨hfields, hreplied, hrest⟩ := addressedState_carriedOut noCommand_commandFrame haccepted 0x6000#16 sender s
  exact ⟨_, rfl, hfields, hreplied, addressedState_noCommand_mergeFrame sender _ s, hrest⟩

/-- Settles O43: what every command leaves alone, and what each command byte does to the merge state. -/
theorem artAddressIsCarriedOut : Obligations.ArtAddressIsCarriedOut := by
  intro s sender body haccepted
  rw [exec_artAddress_commandOf haccepted.length, receive_addressRouteWith_of_accepted haccepted]
  generalize bodyByte body 106 = c
  obtain ⟨hfields, hreplied, hcaptured, hframe, hreported⟩ :=
    addressedState_carriedOut (commandOf_commandFrame c) haccepted 0x6000#16 sender s
  rw [commandOf_fst] at hreported
  refine ⟨_, rfl, hfields, hreplied, hcaptured, hframe, hreported, ?other, ?cancel, ?clear⟩
  case other =>
    intro hcancel hclear
    rw [commandOf_of_other hcancel hclear]
    exact addressedState_noCommand_mergeFrame sender _ s
  case cancel =>
    rintro rfl
    exact addressedState_cancelMerge_mergeFrame sender _ s
  case clear =>
    rintro rfl
    have hmerge := addressedState_clearBuffer_mergeFrame sender (packet 0x6000#16 body) s
    have hout (i : Nat) := (congrArg (Memory.read · i) hmerge.out).trans (Memory.read_zeroRange_universe s.out i)
    refine ⟨{ hmerge with out := rfl }, fun i hi => ?_, fun i hi => ?_⟩
    · exact (hout i).trans (if_pos hi)
    · exact (hout i).trans (if_neg (Nat.not_lt.2 hi))

end Sys2Proof.Machine
end

section
/-! The poll-reply encoder (R200 to R204): the state it leaves, and the layout of the bytes it emits. -/

namespace Sys2Proof.Machine

/-! ## The encoder -/

theorem exec_artPollReplyEmitted (sender : Ip) (s : State) :
    exec (.artPollReplyEmitted sender) s = .next (pollReply sender s) := rfl

/-- A poll reply writes the template and the transmit stream only (R200). -/
theorem pollReply_eq_update (sender : Ip) (s : State) :
    pollReply sender s = { s with tpl := (pollReply sender s).tpl, tx := (pollReply sender s).tx } := rfl

/-- Settles O50: the reply is what `Replied` says, and nothing else is written. -/
theorem pollReplyRefreshesAndTransmitsTheTemplate : Obligations.PollReplyRefreshesAndTransmitsTheTemplate := by
  intro s sender
  obtain ⟨hpa, hothers, htx⟩ := replied_pollReply sender s
  refine ⟨(pollReply sender s).tpl, hpa, hothers, ?_⟩
  rw [exec_artPollReplyEmitted, ← htx, ← pollReply_eq_update]

/-! ## The bytes of a reply -/

theorem Memory.take_readBytes (m : Memory) (base : Nat) {k n : Nat} (h : k ≤ n) :
    (m.readBytes base n).take k = m.readBytes base k := by
  rw [readBytes, ← List.map_take, List.take_range, Nat.min_eq_left h, readBytes]

theorem length_replyRequest_bytes (sender : Ip) (s : State) : (replyRequest sender s).bytes.length = 239 :=
  Memory.length_readBytes s.tpl 0 239

/-- An octet of an address is a digit of it to base 256, the most significant first (R36, R65). -/
theorem octets_getD_toNat (ip : Ip) {k : Nat} (hk : k < 4) :
    ((octets ip).getD k 0#8).toNat = ip.toNat / 256 ^ (3 - k) % 256 := by
  have hoctet (start : Nat) : (ip.extractLsb' start 8).toNat = ip.toNat / 2 ^ start % 256 := by
    rw [BitVec.extractLsb'_toNat, Nat.shiftRight_eq_div_pow]
  match k, hk with
  | 0, _ => exact hoctet 24
  | 1, _ => exact hoctet 16
  | 2, _ => exact hoctet 8
  | 3, _ => exact hoctet 0

/-- The port-address byte of a reply is the live one (R201). -/
theorem replyRequest_portAddress (sender : Ip) (s : State) :
    ((replyRequest sender (refreshPortAddress s)).bytes.getD 190 0#8).toNat = s.paLoNat := by
  rw [replyRequest, Memory.getD_readBytes, if_pos (by decide), Nat.zero_add, refreshPortAddress_tpl, Memory.read_write,
    if_pos rfl, State.paLo_toNat]

section
variable {s : State} (h : s.Inv)
include h

/-- A template byte at a node-address offset is an octet of `NODE_IP` (R31, R36). -/
theorem State.Inv.tpl_read_node {k : Nat} (hk : k < 4) : s.tpl.read (10 + k) = (octets s.nodeIp).getD k 0#8 := by
  rw [← h.tpl_node, Memory.getD_readBytes, if_pos hk]

/-- A fixed byte of a reply is the template's reset byte (R31). -/
theorem replyRequest_fixed (sender : Ip) {i : Nat} (hi : fixedOffset i = true) :
    (replyRequest sender (refreshPortAddress s)).bytes.getD i 0#8 = templateAtReset.read i := by
  have hlt : i < 239 ∧ i ≠ 190 := by
    simp [fixedOffset] at hi
    omega
  rw [getD_replyRequest_bytes sender s hlt.1 hlt.2, h.tpl_fixed i hi]

/-- A reply begins with the ten header bytes of the reset template. -/
theorem replyRequest_header (sender : Ip) :
    (replyRequest sender (refreshPortAddress s)).bytes.take 10 = templateAtReset.readBytes 0 10 := by
  rw [replyRequest, Memory.take_readBytes _ _ (by decide)]
  refine Memory.readBytes_congr fun i hi => ?_
  rw [Nat.zero_add, refreshPortAddress_tpl, Memory.read_write, if_neg (by simp only [Config.prPaOffset]; omega)]
  exact h.tpl_fixed i (by simp [fixedOffset, hi])

/-- A node-address byte of a reply is an octet of `NODE_IP` (R36). -/
theorem replyRequest_node (sender : Ip) {k : Nat} (hk : k < 4) :
    (replyRequest sender (refreshPortAddress s)).bytes.getD (10 + k) 0#8 = (octets s.nodeIp).getD k 0#8 := by
  rw [getD_replyRequest_bytes sender s (by omega) (by omega), h.tpl_read_node hk]

end

/-- Bytes that begin with the header of an ArtPollReply decode to the emitted row (R88). -/
theorem decode_emittedDatagram_of_header {bytes : List Byte} (h : bytes.take 10 = templateAtReset.readBytes 0 10)
    (dest : Ip) : decode (.emittedDatagram dest bytes) = .ok (.artPollReplyEmitted dest) := by
  rw [decode, decodeEmitted, if_pos (h.trans (by decide))]

/-- Settles O51, offset range by offset range of the one request. -/
theorem replyBytesFollowTheLayout : Obligations.ReplyBytesFollowTheLayout := by
  intro s t sender hinv hexec
  obtain rfl := Host.Outcome.next.inj hexec
  have hheader := replyRequest_header hinv sender
  refine ⟨replyRequest sender (refreshPortAddress s), pollReply_tx sender s, length_replyRequest_bytes sender _,
    hheader.trans (by decide), fun k hk => ?_, replyRequest_fixed hinv sender (i := 14) rfl,
    replyRequest_fixed hinv sender (i := 15) rfl, replyRequest_portAddress sender s,
    fun i _ hi hpa => getD_replyRequest_bytes sender s hi hpa, decode_emittedDatagram_of_header hheader _⟩
  rw [replyRequest_node hinv sender hk, octets_getD_toNat s.nodeIp hk]

end Sys2Proof.Machine
end

section
/-! The host operations on the byte spaces (R222 to R226) and the operations that do nothing (R228, R229): a read answers
a byte in range and 0 beyond it, a write stores one byte where the host may write and nothing elsewhere. -/

namespace Sys2Proof.Machine

/-! ## Reads -/

/-- A host read inside the readable range is the byte zero-extended (R62 to R64). -/
theorem hostByte_eq_ofNat_of_lt {m : Memory} {size : Nat} {idx : Index} (h : idx.toNat < size) :
    hostByte m size idx = BitVec.ofNat 32 (m.read idx.toNat).toNat := by
  rw [← hostByte_toNat_of_lt h, BitVec.ofNat_toNat, BitVec.setWidth_eq]

/-- An operation that answers a host read gives the byte in range and 0 beyond it, and changes nothing else. -/
theorem hostRead_of_eq {i : Instr} {s : State} {m : Memory} {size : Nat} {idx : Index}
    (h : exec i s = .next (answer (hostByte m size idx) s)) :
    (idx.toNat < size → exec i s = .next { s with rdata := BitVec.ofNat 32 (m.read idx.toNat).toNat })
      ∧ (size ≤ idx.toNat → exec i s = .next { s with rdata := 0 }) := by
  constructor <;> intro hidx
  · rw [h, hostByte_eq_ofNat_of_lt hidx, answer]
  · rw [h, hostByte_of_le hidx, answer]

theorem exec_tplRead (idx : Index) (s : State) :
    exec (.tplRead idx) s = .next (answer (hostByte s.tpl 239 idx) s) := rfl

theorem exec_rxRead (idx : Index) (s : State) :
    exec (.rxRead idx) s = .next (answer (hostByte s.rx s.rxLen idx) s) := rfl

/-- Settles O21: the template has 239 readable bytes. -/
theorem tplReadGivesTheTemplateByte : Obligations.TplReadGivesTheTemplateByte :=
  fun s idx => hostRead_of_eq (exec_tplRead idx s)

/-- Settles O23: `RX` has `RX_LEN` readable bytes. -/
theorem rxReadGivesTheDatagramByte : Obligations.RxReadGivesTheDatagramByte :=
  fun s idx => hostRead_of_eq (exec_rxRead idx s)

/-! ## Writes -/

/-- A write of one byte changes the array at that index and nowhere else. -/
theorem Memory.write_stores (m : Memory) (i : Nat) (v : Byte) :
    (m.write i v).read i = v ∧ ∀ j, j ≠ i → (m.write i v).read j = m.read j :=
  ⟨by rw [read_write, if_pos rfl], fun j hj => by rw [read_write, if_neg hj]⟩

/-- A write beyond the levels is inert (R223). -/
theorem exec_outWrite_of_le {idx : Index} (h : 512 ≤ idx.toNat) (byte : Byte) (s : State) :
    exec (.outWrite idx byte) s = .next { s with rdata := 0 } := by
  rw [exec, execOutWrite, if_neg (Nat.not_lt.2 h), answer]

/-- A write at an offset that the host does not own is inert (R225). -/
theorem exec_tplWrite_of_not_hostOwned {idx : Index} (h : ¬hostOwned idx.toNat = true) (byte : Byte) (s : State) :
    exec (.tplWrite idx byte) s = .next { s with rdata := 0 } := by
  rw [exec, execTplWrite, if_neg h, answer]

/-- Settles O20: a read of the 512 levels, and a write on either side of that bound. -/
theorem outReadAndOutWriteLevels : Obligations.OutReadAndOutWriteLevels := by
  refine ⟨fun s idx => hostRead_of_eq (exec_outRead idx s), fun s idx byte => ⟨fun hidx => ?_, fun hidx => ?_⟩⟩
  · exact ⟨_, exec_outWrite_of_lt hidx byte s, s.out.write_stores idx.toNat byte⟩
  · exact exec_outWrite_of_le hidx byte s

/-- Settles O22: the two clauses are the two sides of the host's ownership of the offset. -/
theorem tplWriteStoresAtHostOwnedOffsetsOnly : Obligations.TplWriteStoresAtHostOwnedOffsetsOnly := by
  refine fun s idx byte => ⟨fun hlo hhi hpa => ?_, fun hother => ?_⟩
  · have howned : hostOwned idx.toNat = true := hostOwned_iff.2 ⟨hhi, hlo, hpa⟩
    exact ⟨_, exec_tplWrite_of_hostOwned howned byte s, s.tpl.write_stores idx.toNat byte⟩
  · have hforeign : ¬hostOwned idx.toNat = true := by
      rw [hostOwned_iff]
      omega
    exact exec_tplWrite_of_not_hostOwned hforeign byte s

/-! ## Operations that do nothing -/

theorem exec_nop (s : State) : exec .nop s = .next { s with rdata := 0 } := rfl

/-- A reserved operation executes exactly as `NOP` (R229). -/
theorem exec_reserved_eq_exec_nop {i : Instr}
    (h : i ∈ [Instr.reservedOp9, .reservedOpA, .reservedOpB, .reservedOpC, .reservedOpD, .reservedOpE, .reservedOpF])
    (s : State) : exec i s = exec .nop s := by
  simp only [List.mem_cons, List.not_mem_nil, or_false] at h
  rcases h with rfl | rfl | rfl | rfl | rfl | rfl | rfl <;> rfl

/-- Settles O24: each of the eight operations executes as `NOP`. -/
theorem nopAndReservedOperationsDoNothing : Obligations.NopAndReservedOperationsDoNothing := by
  intro s i hi
  rcases List.mem_cons.1 hi with rfl | hreserved
  · exact exec_nop s
  · rw [exec_reserved_eq_exec_nop hreserved, exec_nop]

end Sys2Proof.Machine
end

section
/-! Where a step stops (R250, R252), and what an `INGEST` with a silent drop or with a reply leaves (R251, R132). -/

namespace Sys2Proof.Machine

/-! ## The one refusal (R252) -/

/-- The next datagram at the port has a `LEN` that is not the number of its bytes (R252(b)). -/
def LenMismatch (s : State) : Prop := ∃ d ds, s.port = d :: ds ∧ d.len.toNat ≠ d.bytes.length

theorem execIngest_of_lenMismatch {s : State} (h : LenMismatch s) : execIngest true s = .refused .hostViolation := by
  obtain ⟨d, ds, hport, hlen⟩ := h
  rw [execIngest_of_cons hport, if_neg hlen]

/-- A host operation completes, or is an `INGEST` that takes a datagram with a wrong `LEN` (R250, R252). -/
theorem exec_completes_or_lenMismatch {i : Instr} (hi : i.isHostOp = true) (s : State) :
    (∃ t, exec i s = .next t) ∨ (i = .ingest true ∧ LenMismatch s) := by
  cases i with
  | ingest present =>
    rcases execIngest_cases present s with ⟨_, h⟩ | ⟨d, ds, rfl, hport, hlen, _⟩ | ⟨_, _, _, _, _, h⟩
    · exact .inl ⟨_, h⟩
    · exact .inr ⟨rfl, d, ds, hport, hlen⟩
    · exact .inl ⟨_, h⟩
  | nop | csrRead | csrWrite | outRead | outWrite | tplRead | tplWrite | rxRead | reservedOp9 | reservedOpA
  | reservedOpB | reservedOpC | reservedOpD | reservedOpE | reservedOpF => exact .inl ⟨_, rfl⟩
  | artDMX | artPoll | artAddress | artPollReplyReceived | artUnknownOpcode | notArtNet | artAddressCancelMerge
  | artAddressClearBuffer | artAddressNoCommand | artPollReplyEmitted => cases hi

/-- The next word is an `INGEST` with `PRESENT = 1` and its datagram has a wrong `LEN`. -/
def IngestsLenMismatch (s : State) : Prop :=
  ∃ w rest, s.hostOps = w :: rest ∧ decodeWord w = .ingest true ∧ LenMismatch s

/-- A step completes, or ingests a datagram with a wrong `LEN` (R250, entry 13). -/
theorem step_completes_or_ingestsLenMismatch (s : State) : (∃ t, step s = .next t) ∨ IngestsLenMismatch s := by
  rcases step_cases s with ⟨_, h⟩ | ⟨w, rest, hops, h⟩ <;> rw [h]
  · exact .inl ⟨s, rfl⟩
  · exact (exec_completes_or_lenMismatch (decodeWord_isHostOp w) { s with hostOps := rest }).imp id
      fun ⟨hw, hlen⟩ => ⟨w, rest, hops, hw, hlen⟩

theorem step_of_ingestsLenMismatch {s : State} (h : IngestsLenMismatch s) : step s = .refused .hostViolation := by
  obtain ⟨w, rest, hops, hw, hlen⟩ := h
  rw [step_of_cons hops, hw]
  exact execIngest_of_lenMismatch hlen

/-- Settles O6: a step that does not complete ingests a datagram with a wrong `LEN`, and such a step is refused. -/
theorem stepStopsOnlyOnALengthMismatch : Obligations.StepStopsOnlyOnALengthMismatch := by
  intro s
  refine ⟨(step_completes_or_ingestsLenMismatch s).imp id step_of_ingestsLenMismatch, fun hrefused => ?_, ?_⟩
  · rcases step_completes_or_ingestsLenMismatch s with ⟨t, hnext⟩ | ⟨w, rest, hops, hw, d, ds, hmismatch⟩
    · exact absurd (hnext.symm.trans hrefused) nofun
    · exact ⟨w, rest, d, ds, hops, hw, hmismatch⟩
  · rintro ⟨w, rest, d, ds, hops, hw, hmismatch⟩
    exact step_of_ingestsLenMismatch ⟨w, rest, hops, hw, d, ds, hmismatch⟩

/-! ## What a captured packet does, by its verdict (R251) -/

/-- The verdicts of the three outcomes that transmit (R251). -/
def Verdict.IsReply (v : Verdict) : Prop := v = .pollReplied ∨ v = .addressApplied ∨ v = .addressCleared

/-- What a handler answers for a captured packet of a verdict: a drop leaves the state alone, an accepted frame
has result 1, and a reply is the one request of its route. -/
inductive VerdictOutcome (s : State) : Verdict → Bool × State → Prop where
  | dropped {v : Verdict} (hdrop : v.isDrop = true) (hfits : v ≠ .oversize) : VerdictOutcome s v (false, s)
  | accepted {v : Verdict} {p : Bool × State} (hframe : v.IsAcceptedFrame) (hbit : p.1 = true) : VerdictOutcome s v p
  | replied {v : Verdict} {p : Bool × State} (hreply : v.IsReply) (r : TxRequest) (htx : p.2.tx = s.tx ++ [r]) :
      VerdictOutcome s v p

theorem Verdict.IsAcceptedFrame.isDrop {v : Verdict} (h : v.IsAcceptedFrame) : v.isDrop = false := by
  rcases h with rfl | rfl | rfl <;> rfl

theorem Verdict.IsReply.isDrop {v : Verdict} (h : v.IsReply) : v.isDrop = false := by
  rcases h with rfl | rfl | rfl <;> rfl

theorem Verdict.IsReply.ne_oversize {v : Verdict} (h : v.IsReply) : v ≠ .oversize := by
  rintro rfl
  exact absurd h.isDrop.symm Bool.false_ne_true

theorem Verdict.IsReply.not_isAcceptedFrame {v : Verdict} (h : v.IsReply) : ¬v.IsAcceptedFrame := by
  rcases h with rfl | rfl | rfl <;> simp [Verdict.IsAcceptedFrame]

theorem VerdictOutcome.eq_of_isDrop {s : State} {v : Verdict} {p : Bool × State} (h : VerdictOutcome s v p)
    (hdrop : v.isDrop = true) : p = (false, s) := by
  cases h with
  | dropped => rfl
  | accepted hframe => exact absurd (hframe.isDrop.symm.trans hdrop) Bool.false_ne_true
  | replied hreply => exact absurd (hreply.isDrop.symm.trans hdrop) Bool.false_ne_true

theorem VerdictOutcome.tx_of_isReply {s : State} {v : Verdict} {p : Bool × State} (h : VerdictOutcome s v p)
    (hreply : v.IsReply) : ∃ r, p.2.tx = s.tx ++ [r] := by
  cases h with
  | dropped hdrop => exact absurd (hreply.isDrop.symm.trans hdrop) Bool.false_ne_true
  | accepted hframe => exact absurd hframe hreply.not_isAcceptedFrame
  | replied _ r htx => exact ⟨r, htx⟩

/-- `Oversize` is no verdict of a captured packet (R122). -/
theorem VerdictOutcome.ne_oversize {s : State} {v : Verdict} {p : Bool × State} (h : VerdictOutcome s v p) :
    v ≠ .oversize := by
  rintro rfl
  cases h with
  | dropped _ hfits => exact hfits rfl
  | accepted hframe => exact absurd hframe.isDrop.symm Bool.false_ne_true
  | replied hreply => exact absurd hreply.isDrop.symm Bool.false_ne_true

/-- A drop has result 0 (R251). -/
theorem Verdict.changed_of_isDrop {v : Verdict} (h : v.isDrop = true) : v.changed = false := by
  revert h
  cases v <;> decide

/-- An ArtDMX packet is dropped after its capture or accepted (R140 to R151). -/
theorem dmxVerdict_cases (len : Nat) (sender : Ip) (s : State) :
    ((dmxVerdict len sender s).isDrop = true ∧ dmxVerdict len sender s ≠ .oversize)
      ∨ (dmxVerdict len sender s).IsAcceptedFrame := by
  unfold dmxVerdict
  split_ifs <;> simp [Verdict.isDrop, Verdict.IsAcceptedFrame]

/-- The ArtDMX handler leaves the state alone where its result is 0 (R140 to R151). -/
theorem dmxHandler_of_fst_false {len : Nat} {sender : Ip} {s : State} (hbit : (dmxHandler len sender s).1 = false) :
    dmxHandler len sender s = (false, s) := by
  rcases dmxHandler_cases len sender s with h | ⟨_, _, _, ⟨_, h⟩ | ⟨_, h⟩⟩ <;> rw [h] at hbit ⊢
  · rcases htpStep_cases sender (rxSlotCount s.rx) s with ⟨_, h⟩ | ⟨_, _, _, _, h⟩ | ⟨_, _, _, _, _, _, h⟩ <;>
      rw [h] at hbit ⊢ <;> cases hbit
  · rcases singleStep_cases sender (rxSlotCount s.rx) s with ⟨_, _, h⟩ | ⟨_, _, _, h⟩ <;> rw [h] at hbit ⊢
    cases hbit

theorem dmxHandler_verdictOutcome (len : Nat) (sender : Ip) (s : State) :
    VerdictOutcome s (dmxVerdict len sender s) (dmxHandler len sender s) := by
  rcases dmxVerdict_cases len sender s with ⟨hdrop, hfits⟩ | hframe
  · rw [dmxHandler_of_fst_false ((dmxHandler_fst len sender s).trans (Verdict.changed_of_isDrop hdrop))]
    exact .dropped hdrop hfits
  · exact .accepted hframe ((dmxHandler_fst len sender s).trans hframe.changed)

/-- A captured packet has the outcome of its verdict, route by route (R126 to R130, R251). -/
theorem handle_verdictOutcome (len : Nat) (sender : Ip) (s : State) :
    VerdictOutcome s (capturedVerdict len sender s) (handle len sender s) := by
  unfold handle capturedVerdict
  rcases validate s.rx len with ⟨_ | _, op⟩
  · exact .dropped rfl nofun
  · simp only [if_true, Bool.true_eq_false, if_false, dispatch, pollRoute, addressRoute, addressRouteWith]
    split_ifs
    · exact dmxHandler_verdictOutcome len sender s
    · exact .replied (.inl rfl) _ (pollReply_tx sender s)
    · exact .dropped rfl nofun
    · exact .replied (.inr (.inr rfl)) _ (by rw [pollReply_tx, runCommand_tx, applyFields_tx])
    · exact .replied (.inr (.inl rfl)) _ (by rw [pollReply_tx, runCommand_tx, applyFields_tx])
    · exact .dropped rfl nofun
    · exact .dropped rfl nofun

/-! ## What an `INGEST` does, by its verdict (R251) -/

section
variable {s : State} {d : Datagram} {rest : List Datagram} (hport : s.port = d :: rest)
include hport

/-- The verdict is `Oversize` exactly where the datagram is longer than `RX` (R122). -/
theorem ingestVerdict_eq_oversize_iff : ingestVerdict true s = .oversize ↔ Config.rxCap < d.bytes.length := by
  rw [ingestVerdict_present hport]
  split_ifs with hover
  · simp [hover]
  · simp [hover, (handle_verdictOutcome _ _ _).ne_oversize]

/-- A captured datagram is handled with the outcome of its verdict; no handler reads the port. -/
theorem handle_outcome_of_ne_oversize (h : ingestVerdict true s ≠ .oversize) :
    VerdictOutcome (capture d.bytes { s with port := rest }) (ingestVerdict true s)
      (handle d.bytes.length d.sender (capture d.bytes { s with port := rest })) := by
  rw [ingestVerdict_present hport, if_neg (mt (ingestVerdict_eq_oversize_iff hport).2 h)]
  exact handle_verdictOutcome d.bytes.length d.sender (capture d.bytes { s with port := rest })

theorem receive_of_ne_oversize (h : ingestVerdict true s ≠ .oversize) :
    receive handle d.sender d.bytes { s with port := rest }
      = finish (handle d.bytes.length d.sender (capture d.bytes { s with port := rest })) :=
  receive_of_fits (Nat.not_lt.1 (mt (ingestVerdict_eq_oversize_iff hport).2 h))

end

/-- Of the verdicts of a reply only `AddressCleared` has `RESULT` 1 (R132). -/
theorem Verdict.IsReply.changed_iff {v : Verdict} (h : v.IsReply) : v.changed = true ↔ v = .addressCleared := by
  rcases h with rfl | rfl | rfl <;> decide

/-- Settles O33: the reception of a datagram by its verdict, and its bit. -/
theorem silentDropsChangeNothingButTheCapture : Obligations.SilentDropsChangeNothingButTheCapture := by
  intro s d rest hport hlen
  rw [exec_ingest_of_cons hport hlen]
  refine ⟨fun hover => ?_, fun hdrop hfits => ?_, fun hreply => ?_, ingestVerdict_absent s, exec_ingest_absent s⟩
  · rw [receive_of_oversize ((ingestVerdict_eq_oversize_iff hport).1 hover)]
    rfl
  · rw [receive_of_ne_oversize hport hfits, (handle_outcome_of_ne_oversize hport hfits).eq_of_isDrop hdrop]
    rfl
  · have hfits : ingestVerdict true s ≠ .oversize := Verdict.IsReply.ne_oversize hreply
    obtain ⟨r, htx⟩ := (handle_outcome_of_ne_oversize hport hfits).tx_of_isReply hreply
    refine ⟨_, r, rfl, ?_, ?_⟩
    · rw [receive_of_ne_oversize hport hfits]
      exact htx
    · rw [(reported_receive hport).result]
      exact Verdict.IsReply.changed_iff hreply

end Sys2Proof.Machine
end

section
/-! A bound source stays bound (R257): what every step leaves of the two source slots. -/

namespace Sys2Proof.Machine

/-! ## Slots that keep their senders -/

/-- A bound source slot holds the same sender still; an unbound one may have been bound (R26). -/
def SlotKept (slot slot' : Option Ip) : Prop := ∀ x, slot = some x → slot' = some x

theorem SlotKept.refl (slot : Option Ip) : SlotKept slot slot := fun _ => id

theorem slotKept_of_unbound (slot' : Option Ip) : SlotKept none slot' := nofun

/-- Both source slots keep their senders. -/
structure SourcesKept (s t : State) : Prop where
  srcA : SlotKept s.srcA t.srcA
  srcB : SlotKept s.srcB t.srcB

theorem SourcesKept.of_eq {s t : State} (hA : t.srcA = s.srcA) (hB : t.srcB = s.srcB) : SourcesKept s t :=
  ⟨fun _ h => hA.trans h, fun _ h => hB.trans h⟩

theorem bindA_slotKept (sender : Ip) (s : State) : SlotKept s.srcA (bindA sender s).srcA := by
  rw [bindA]
  split_ifs with h
  · exact h ▸ slotKept_of_unbound _
  · exact .refl _

theorem bindB_slotKept (sender : Ip) (s : State) : SlotKept s.srcB (bindB sender s).srcB := by
  rw [bindB]
  split_ifs with h
  · exact h ▸ slotKept_of_unbound _
  · exact .refl _

theorem bindSingle_slotKept (sender : Ip) (s : State) : SlotKept s.srcA (bindSingle sender s).srcA := by
  rw [bindSingle]
  split_ifs with h
  · exact h ▸ slotKept_of_unbound _
  · exact .refl _

/-! ## The handlers -/

/-- No ArtDMX packet unbinds or rebinds a bound source (R144 to R151). -/
theorem dmxHandler_sourcesKept (len : Nat) (sender : Ip) (s : State) : SourcesKept s (dmxHandler len sender s).2 := by
  rcases dmxHandler_cases len sender s with h | ⟨_, _, _, ⟨_, h⟩ | ⟨_, h⟩⟩ <;> rw [h]
  · exact .of_eq rfl rfl
  · rcases htpStep_cases sender (rxSlotCount s.rx) s with ⟨_, h⟩ | ⟨_, _, _, _, h⟩ | ⟨_, _, _, _, _, _, h⟩ <;> rw [h]
    · exact ⟨bindA_slotKept sender s, by simpa using SlotKept.refl s.srcB⟩
    · exact ⟨by simpa using SlotKept.refl s.srcA, bindB_slotKept sender s⟩
    · exact .of_eq rfl rfl
  · rcases singleStep_cases sender (rxSlotCount s.rx) s with ⟨_, _, h⟩ | ⟨_, _, _, h⟩ <;> rw [h]
    · exact ⟨bindSingle_slotKept sender s, by simpa using SlotKept.refl s.srcB⟩
    · exact .of_eq rfl rfl

theorem pollRoute_sourcesKept (len : Nat) (sender : Ip) (s : State) : SourcesKept s (pollRoute len sender s).2 := by
  rcases pollRoute_cases len sender s with h | ⟨_, _, h⟩ <;> rw [h] <;> exact .of_eq rfl rfl

/-- The command bytes that unbind, by what they leave of `SRC_B`: cancel-merge unbinds both sources, clear-buffer keeps
`SRC_B` (R152, R153). -/
inductive Unbinding (slotB slotB' : Option Ip) : Byte → Prop where
  | cancel : Unbinding slotB slotB' 0x01#8
  | clear (hB : SlotKept slotB slotB') : Unbinding slotB slotB' 0x90#8

theorem Unbinding.command {slotB slotB' : Option Ip} {c : Byte} (h : Unbinding slotB slotB' c) :
    c = 0x01#8 ∨ c = 0x90#8 := by
  cases h with
  | cancel => exact .inl rfl
  | clear => exact .inr rfl

/-- Only cancel-merge loses the sender of `SRC_B`. -/
theorem Unbinding.eq_cancel {slotB slotB' : Option Ip} {c : Byte} (h : Unbinding slotB slotB' c)
    (hB : ¬SlotKept slotB slotB') : c = 0x01#8 := by
  cases h with
  | cancel => rfl
  | clear hkept => exact absurd hkept hB

/-- An ArtAddress packet keeps both sources, or is long enough to hold a command byte that unbinds (R184). -/
theorem addressRoute_sources (len : Nat) (sender : Ip) (s : State) :
    SourcesKept s (addressRoute len sender s).2
      ∨ (107 ≤ len ∧ Unbinding s.srcB (addressRoute len sender s).2.srcB (s.rx.read 106)) := by
  rcases addressRouteWith_cases runCommand len sender s with h | ⟨hlen, _, h⟩ <;> rw [addressRoute, h]
  · exact .inl (.of_eq rfl rfl)
  · rcases runCommand_cases (applyFields s) with ⟨hc, h⟩ | ⟨hc, h⟩ | ⟨_, _, h⟩ <;> rw [h]
    · rw [applyFields_rx] at hc
      exact .inr ⟨hlen, hc ▸ .cancel⟩
    · rw [applyFields_rx] at hc
      exact .inr ⟨hlen, hc ▸ .clear (.refl _)⟩
    · exact .inl (.of_eq rfl rfl)

/-! ## A received datagram -/

/-- A captured byte at or beyond offset 10 is a byte of the datagram's body. -/
theorem capture_read_body {bytes : List Byte} {i : Nat} (hlo : 10 ≤ i) (hhi : i < bytes.length) (s : State) :
    (capture bytes s).rx.read i = bodyByte (bytes.drop 10) i := by
  rw [capture_read, if_pos hhi, bodyByte, List.getD_eq_getElem?_getD, List.getD_eq_getElem?_getD, List.getElem?_drop,
    Nat.add_sub_cancel' hlo]

/-- A received datagram keeps both sources, or is an ArtAddress packet with a command that unbinds. -/
theorem receive_sources (d : Datagram) (s : State) :
    SourcesKept s (receive handle d.sender d.bytes s)
      ∨ ∃ body, decodeDatagram d = .artAddress d.sender body
          ∧ Unbinding s.srcB (receive handle d.sender d.bytes s).srcB (bodyByte body 106) := by
  rcases receive_cases handle d.sender d.bytes s with ⟨_, h⟩ | ⟨_, h⟩ <;> rw [h]
  · exact .inl (.of_eq rfl rfl)
  · rcases handle_cases d.bytes.length d.sender (capture d.bytes s) with h | h | ⟨hop, h⟩ | h <;> rw [h]
    · exact .inl { dmxHandler_sourcesKept d.bytes.length d.sender (capture d.bytes s) with }
    · exact .inl { pollRoute_sourcesKept d.bytes.length d.sender (capture d.bytes s) with }
    · rcases addressRoute_sources d.bytes.length d.sender (capture d.bytes s) with hkept | ⟨hlen, hunbinding⟩
      · exact .inl { hkept with }
      · rw [capture_read_body (by decide) (by omega)] at hunbinding
        exact .inr ⟨_, decodeDatagram_of_validate_address hop, hunbinding⟩
    · exact .inl (.of_eq rfl rfl)

/-! ## The step -/

/-- The enable of a host write, in single-source mode only (R34, R154). -/
theorem writeCtrl_sources (v : Word32) (s : State) :
    SourcesKept s (writeCtrl v s) ∨ (s.htpEn = false ∧ v.getLsbD 0 = true) := by
  rcases writeCtrl_cases v s with ⟨hv, h⟩ | ⟨_, h⟩ <;> rw [h]
  · cases hen : s.htpEn with
    | true => exact .inl (by rw [enableHtp_of_enabled hen]; exact .of_eq rfl rfl)
    | false => exact .inr ⟨rfl, hv⟩
  · exact .inl (.of_eq rfl rfl)

/-- A host operation keeps both sources, or is the `INGEST` of an ArtAddress packet with a command that unbinds, or the
enable (R257). -/
theorem HostEffect.sources_cases {s t : State} {i : Instr} (h : HostEffect s i t) :
    SourcesKept s t
      ∨ (i = .ingest true ∧ ∃ d ds sender body, s.port = d :: ds ∧ decodeDatagram d = .artAddress sender body
          ∧ Unbinding s.srcB t.srcB (bodyByte body 106))
      ∨ (s.htpEn = false ∧ ∃ v : Word32, i = .csrWrite 0x00#16 v ∧ v.getLsbD 0 = true) := by
  cases h with
  | ctrl v =>
    rcases writeCtrl_sources v s with hkept | ⟨hoff, hv⟩
    · exact .inl { hkept with }
    · exact .inr (.inr ⟨hoff, v, rfl, hv⟩)
  | received d rest hport =>
    rcases receive_sources d { s with port := rest } with hkept | ⟨body, hd, hunbinding⟩
    · exact .inl { hkept with }
    · exact .inr (.inl ⟨rfl, d, rest, d.sender, body, hport, hd, hunbinding⟩)
  | numSlots v => exact .inl (.of_eq (writeNumSlots_srcA v s) (writeNumSlots_srcB v s))
  | quiet | portAddr | nodeIp | bcastIp | outWrite | tplWrite | noDatagram => exact .inl (.of_eq rfl rfl)

/-- Settles O57: a step that loses a bound sender is one of the operations that do not keep the sources. -/
theorem boundSourcesStayBound : Obligations.BoundSourcesStayBound := by
  intro s t x hstep
  rcases hostEffect_of_step hstep with ⟨_, rfl⟩ | ⟨w, rest, hops, he⟩
  · exact ⟨fun hbound hlost => absurd hbound hlost, fun hbound hlost => absurd hbound hlost⟩
  · rcases he.sources_cases with hkept | ⟨hw, d, ds, sender, body, hport, hd, hunbinding⟩ | henable
    · exact ⟨fun hbound hlost => absurd (hkept.srcA x hbound) hlost,
        fun hbound hlost => absurd (hkept.srcB x hbound) hlost⟩
    · refine ⟨fun _ _ => ⟨w, rest, hops, .inl ⟨hw, d, ds, sender, body, hport, hd, hunbinding.command⟩⟩,
        fun hbound hlost => ⟨w, rest, hops, .inl ⟨hw, d, ds, sender, body, hport, hd, ?_⟩⟩⟩
      exact hunbinding.eq_cancel fun hkept => hlost (hkept x hbound)
    · exact ⟨fun _ _ => ⟨w, rest, hops, .inr henable⟩, fun _ _ => ⟨w, rest, hops, .inr henable⟩⟩

end Sys2Proof.Machine
end

section
/-! Stale bytes of `RX` (R64, R123, R272): no operation depends on a byte at or beyond `RX_LEN`. A handler reads the
captured packet only, which a capture writes over whatever was in the buffer. -/

namespace Sys2Proof.Machine

/-! ## Another receive buffer -/

/-- The state with another receive buffer. -/
def withRx (m : Memory) (s : State) : State := { s with rx := m }

@[simp] theorem withRx_rx (m : Memory) (s : State) : (withRx m s).rx = m := rfl
@[simp] theorem withRx_srcA (m : Memory) (s : State) : (withRx m s).srcA = s.srcA := rfl
@[simp] theorem withRx_srcB (m : Memory) (s : State) : (withRx m s).srcB = s.srcB := rfl
@[simp] theorem withRx_htpEn (m : Memory) (s : State) : (withRx m s).htpEn = s.htpEn := rfl

/-- The two buffers hold the same first `n` bytes. -/
def Memory.AgreeBelow (n : Nat) (m m' : Memory) : Prop := ∀ i, i < n → m.read i = m'.read i

theorem Memory.AgreeBelow.readBytes_eq {n : Nat} {m m' : Memory} (h : m.AgreeBelow n m') {base k : Nat}
    (hk : base + k ≤ n) : m.readBytes base k = m'.readBytes base k :=
  readBytes_congr fun i hi => h (base + i) (by omega)

/-- A capture writes all the bytes below the new `RX_LEN`, so that any two buffers agree there (R123). -/
theorem Memory.agreeBelow_writeBytes (bytes : List Byte) (m m' : Memory) :
    (m.writeBytes 0 bytes).AgreeBelow bytes.length (m'.writeBytes 0 bytes) := by
  intro i hi
  have hin : 0 ≤ i ∧ i < 0 + bytes.length := by omega
  rw [read_writeBytes, read_writeBytes, if_pos hin, if_pos hin]

/-! ## Operations that do not use the receive buffer -/

/-- The operation neither reads nor writes `RX`, and leaves `RX_LEN` alone. -/
structure RxBlind (f : State → State) : Prop where
  comm : ∀ m s, f (withRx m s) = withRx m (f s)
  rxLen : ∀ s, (f s).rxLen = s.rxLen

theorem RxBlind.rx {f : State → State} (hf : RxBlind f) (s : State) : (f s).rx = s.rx :=
  (congrArg State.rx (hf.comm s.rx s)).trans (withRx_rx s.rx (f s))

theorem bindA_rxBlind (sender : Ip) : RxBlind (bindA sender) :=
  ⟨fun m s => by unfold bindA; rw [withRx_srcA]; split <;> rfl, bindA_rxLen sender⟩

theorem bindB_rxBlind (sender : Ip) : RxBlind (bindB sender) :=
  ⟨fun m s => by unfold bindB; rw [withRx_srcB]; split <;> rfl, bindB_rxLen sender⟩

theorem bindSingle_rxBlind (sender : Ip) : RxBlind (bindSingle sender) :=
  ⟨fun m s => by unfold bindSingle; rw [withRx_srcA]; split <;> rfl, bindSingle_rxLen sender⟩

theorem enableHtp_rxBlind : RxBlind enableHtp :=
  ⟨fun m s => by unfold enableHtp; rw [withRx_htpEn]; split <;> rfl, enableHtp_rxLen⟩

theorem writeCtrl_rxBlind (v : Word32) : RxBlind (writeCtrl v) where
  comm m s := by
    unfold writeCtrl
    split
    · rw [enableHtp_rxBlind.comm]
      rfl
    · rfl
  rxLen s := by
    rcases writeCtrl_cases v s with ⟨_, h⟩ | ⟨_, h⟩ <;> rw [h]
    exact enableHtp_rxLen s

theorem writeNumSlots_rxBlind (v : Word32) : RxBlind (writeNumSlots v) :=
  ⟨fun m s => by unfold writeNumSlots; split <;> rfl, writeNumSlots_rxLen v⟩

/-- No CSR write uses the receive buffer (R34 to R41). -/
theorem writeCsr_rxBlind (idx : Index) (v : Word32) : RxBlind (writeCsr idx v) := by
  unfold writeCsr
  split
  · exact writeCtrl_rxBlind v
  · exact ⟨fun _ _ => rfl, fun _ => rfl⟩
  · exact ⟨fun _ _ => rfl, fun _ => rfl⟩
  · exact ⟨fun _ _ => rfl, fun _ => rfl⟩
  · exact writeNumSlots_rxBlind v
  · exact ⟨fun _ _ => rfl, fun _ => rfl⟩

/-! ## The routes of a captured packet -/

/-- What the route does with a packet of `len` bytes depends on no byte of `RX` but those of the packet. -/
def ReadsThePacket (route : Nat → Ip → State → Bool × State) : Prop :=
  ∀ (len : Nat) (sender : Ip) (s : State) (m : Memory), m.AgreeBelow len s.rx →
    route len sender (withRx m s) = (route len sender s).map id (withRx m)

theorem ignoreRoute_readsThePacket : ReadsThePacket ignoreRoute := fun _ _ _ _ _ => rfl

section
variable {len n : Nat} {s : State} {m : Memory} (h : m.AgreeBelow len s.rx)
include h

theorem frameA_withRx (hn : 18 + n ≤ len) : frameA n (withRx m s) = withRx m (frameA n s) := by
  unfold frameA
  rw [withRx_rx, rxLevels, h.readBytes_eq hn]
  rfl

theorem frameB_withRx (hn : 18 + n ≤ len) : frameB n (withRx m s) = withRx m (frameB n s) := by
  unfold frameB
  rw [withRx_rx, rxLevels, h.readBytes_eq hn]
  rfl

theorem frameSingle_withRx (hn : 18 + n ≤ len) : frameSingle n (withRx m s) = withRx m (frameSingle n s) := by
  unfold frameSingle
  rw [withRx_rx, rxLevels, h.readBytes_eq hn]
  rfl

/-- The HTP step reads the levels only (R144 to R148). -/
theorem htpStep_withRx (hn : 18 + n ≤ len) (sender : Ip) :
    htpStep sender n (withRx m s) = (htpStep sender n s).map id (withRx m) := by
  rcases htpStep_cases sender n s with ⟨hA, he⟩ | ⟨x, hA, hx, hB, he⟩ | ⟨x, y, hA, hx, hB, hy, he⟩ <;> rw [he]
  · rw [htpStep_of_takenByA (s := withRx m s) hA, (bindA_rxBlind sender).comm,
      frameA_withRx (by rwa [bindA_rx]) hn]
    rfl
  · rw [htpStep_of_takenByB (s := withRx m s) hA hx hB, (bindB_rxBlind sender).comm,
      frameB_withRx (by rwa [bindB_rx]) hn]
    rfl
  · rw [htpStep_of_thirdSender (s := withRx m s) hA hx hB hy]
    rfl

/-- The single-source step reads the levels only (R150, R151). -/
theorem singleStep_withRx (hn : 18 + n ≤ len) (sender : Ip) :
    singleStep sender n (withRx m s) = (singleStep sender n s).map id (withRx m) := by
  rcases singleStep_cases sender n s with ⟨hA, _, he⟩ | ⟨x, hA, hx, he⟩ <;> rw [he]
  · rw [singleStep_of_taken (s := withRx m s) hA, (bindSingle_rxBlind sender).comm,
      frameSingle_withRx (by rwa [bindSingle_rx]) hn]
    rfl
  · rw [singleStep_of_otherSender (s := withRx m s) hA hx]
    rfl

theorem rxSlotCount_eq (hlen : 18 ≤ len) : rxSlotCount m = rxSlotCount s.rx := by
  rw [rxSlotCount, rxSlotCount, h 16 (by omega), h 17 (by omega)]

theorem addressMatches_withRx (hlen : 18 ≤ len) : addressMatches (withRx m s) = addressMatches s := by
  unfold addressMatches
  rw [withRx_rx, h 14 (by omega), h 15 (by omega)]
  rfl

theorem applyFields_withRx (hlen : 107 ≤ len) : applyFields (withRx m s) = withRx m (applyFields s) := by
  unfold applyFields
  rw [withRx_rx, h 12 (by omega), h 100 (by omega), h 104 (by omega)]
  rfl

theorem runCommand_withRx (hlen : 107 ≤ len) : runCommand (withRx m s) = (runCommand s).map id (withRx m) := by
  unfold runCommand
  rw [withRx_rx, h 106 (by omega)]
  dsimp only
  split_ifs <;> rfl

/-- The validator reads the header only where there is one (R124). -/
theorem validate_eq : validate m len = validate s.rx len := by
  unfold validate
  by_cases hlen : len < Config.headerLen
  · rw [if_pos hlen, if_pos hlen]
  · have hten : 10 ≤ len := Nat.not_lt.1 hlen
    rw [h.readBytes_eq (by omega), rxOpcode, rxOpcode, h 8 (by omega), h 9 (by omega)]

end

/-- The ArtDMX handler reads the header of a packet that has one, and the levels of one that holds them all (R140 to
R142). -/
theorem dmxHandler_readsThePacket : ReadsThePacket dmxHandler := by
  intro len sender s m h
  unfold dmxHandler
  by_cases hlen : len < Config.dmxHeaderLen
  · rw [if_pos hlen, if_pos hlen]
    rfl
  · have hheader : 18 ≤ len := Nat.not_lt.1 hlen
    simp only [withRx_rx, withRx_htpEn, rxSlotCount_eq h hheader, addressMatches_withRx h hheader]
    split_ifs with _ hwhole
    · rfl
    · rfl
    · rfl
    · exact htpStep_withRx h (Nat.not_lt.1 hwhole) sender
    · exact singleStep_withRx h (Nat.not_lt.1 hwhole) sender

/-- The ArtPoll route reads the version byte of a packet that is long enough (R128). -/
theorem pollRoute_readsThePacket : ReadsThePacket pollRoute := by
  intro len sender s m h
  unfold pollRoute
  by_cases hlen : Config.pollMinLen ≤ len
  · rw [withRx_rx, h 11 (Nat.lt_of_lt_of_le (by decide) hlen)]
    split_ifs <;> rfl
  · rw [if_neg (hlen ·.1), if_neg (hlen ·.1)]
    rfl

/-- The ArtAddress route reads version, fields and command of a packet that is long enough (R129). -/
theorem addressRoute_readsThePacket : ReadsThePacket addressRoute := by
  intro len sender s m h
  unfold addressRoute addressRouteWith
  by_cases hlen : Config.addressMinLen ≤ len
  · have hcommand : runCommand (withRx m (applyFields s)) = (runCommand (applyFields s)).map id (withRx m) :=
      runCommand_withRx (by rwa [applyFields_rx]) hlen
    rw [withRx_rx, h 11 (Nat.lt_of_lt_of_le (by decide) hlen), applyFields_withRx h hlen, hcommand]
    split_ifs <;> rfl
  · rw [if_neg (hlen ·.1), if_neg (hlen ·.1)]
    rfl

/-- A captured packet is handled by its own bytes (R120, R126). -/
theorem handle_readsThePacket : ReadsThePacket handle := by
  intro len sender s m h
  unfold handle dispatch
  rw [withRx_rx, validate_eq h]
  dsimp only
  split_ifs
  · exact dmxHandler_readsThePacket len sender s m h
  · exact pollRoute_readsThePacket len sender s m h
  · exact addressRoute_readsThePacket len sender s m h
  · exact ignoreRoute_readsThePacket len sender s m h
  · exact ignoreRoute_readsThePacket len sender s m h

/-! ## The step -/

/-- The two outcomes are the same, but for bytes of `RX` at or beyond `RX_LEN`. -/
inductive SameButStaleRx :
    Host.Outcome State Fault Refusal → Host.Outcome State Fault Refusal → Prop where
  | next {t : State} {m : Memory} (h : m.AgreeBelow t.rxLen t.rx) : SameButStaleRx (.next t) (.next (withRx m t))
  | refused (r : Refusal) : SameButStaleRx (.refused r) (.refused r)

theorem SameButStaleRx.exists_of_next {t : State} {o : Host.Outcome State Fault Refusal}
    (h : SameButStaleRx (.next t) o) : ∃ m, o = .next (withRx m t) ∧ m.AgreeBelow t.rxLen t.rx := by
  cases h with
  | next h => exact ⟨_, rfl, h⟩

theorem SameButStaleRx.eq_of_refused {r : Refusal} {o : Host.Outcome State Fault Refusal}
    (h : SameButStaleRx (.refused r) o) : o = .refused r := by
  cases h with
  | refused => rfl

section
variable {s : State} {m : Memory} (h : m.AgreeBelow s.rxLen s.rx)
include h

theorem RxBlind.sameButStaleRx {f : State → State} (hf : RxBlind f) :
    SameButStaleRx (.next (f s)) (.next (f (withRx m s))) := by
  rw [hf.comm]
  exact .next (by rwa [hf.rxLen, hf.rx])

/-- `RX_READ` reads below `RX_LEN` only (R64, R226). -/
theorem exec_rxRead_sameButStaleRx (idx : Index) :
    SameButStaleRx (exec (.rxRead idx) s) (exec (.rxRead idx) (withRx m s)) := by
  have hbyte : hostByte m s.rxLen idx = hostByte s.rx s.rxLen idx := by
    unfold hostByte
    split_ifs with hidx
    · rw [h _ hidx]
    · rfl
  have hread : exec (.rxRead idx) (withRx m s) = .next (withRx m (answer (hostByte s.rx s.rxLen idx) s)) :=
    congrArg (fun v => Host.Outcome.next (withRx m (answer v s))) hbyte
  rw [hread]
  exact .next h

/-- A reception drops a datagram that does not fit, and writes the bytes it handles over any stale ones (R122, R123). -/
theorem receive_sameButStaleRx (sender : Ip) (bytes : List Byte) :
    SameButStaleRx (.next (receive handle sender bytes s)) (.next (receive handle sender bytes (withRx m s))) := by
  by_cases hfit : bytes.length ≤ Config.rxCap
  · have hagree := Memory.agreeBelow_writeBytes bytes m s.rx
    have hframe := handle_frame bytes.length sender (capture bytes s)
    have hcapture : capture bytes (withRx m s) = withRx (m.writeBytes 0 bytes) (capture bytes s) := rfl
    rw [receive_of_fits hfit, receive_of_fits hfit, hcapture,
      handle_readsThePacket bytes.length sender (capture bytes s) _ hagree]
    refine .next ?_
    rw [finish, hframe.rxLen, hframe.rx]
    exact hagree
  · rw [receive_of_oversize (Nat.not_le.1 hfit), receive_of_oversize (Nat.not_le.1 hfit)]
    exact .next h

theorem execIngest_sameButStaleRx (present : Bool) :
    SameButStaleRx (execIngest present s) (execIngest present (withRx m s)) := by
  cases present with
  | false => exact .next h
  | true =>
    cases hport : s.port with
    | nil =>
      rw [execIngest_of_empty hport, execIngest_of_empty (s := withRx m s) hport]
      exact .next h
    | cons d rest =>
      rw [execIngest_of_cons hport, execIngest_of_cons (s := withRx m s) hport]
      split_ifs
      · exact receive_sameButStaleRx (s := { s with port := rest }) h d.sender d.bytes
      · exact .refused .hostViolation

/-- Every host operation does the same with two buffers that agree below `RX_LEN`: `RX_READ` and `INGEST` use the buffer,
no other operation does. -/
theorem exec_sameButStaleRx {i : Instr} (hi : i.isHostOp = true) :
    SameButStaleRx (exec i s) (exec i (withRx m s)) := by
  cases i with
  | rxRead idx => exact exec_rxRead_sameButStaleRx h idx
  | ingest present => exact execIngest_sameButStaleRx h present
  | csrWrite idx v =>
    have hwrite := writeCsr_rxBlind idx v
    exact RxBlind.sameButStaleRx (f := fun s => answer 0 (writeCsr idx v s)) h
      ⟨fun m s => congrArg (answer 0) (hwrite.comm m s), hwrite.rxLen⟩
  | outWrite idx byte =>
    rw [exec, execOutWrite, exec, execOutWrite]
    split_ifs <;> exact .next h
  | tplWrite idx byte =>
    rw [exec, execTplWrite, exec, execTplWrite]
    split_ifs <;> exact .next h
  | nop | csrRead | outRead | tplRead | reservedOp9 | reservedOpA | reservedOpB | reservedOpC | reservedOpD
  | reservedOpE | reservedOpF => exact .next h
  | artDMX | artPoll | artAddress | artPollReplyReceived | artUnknownOpcode | notArtNet | artAddressCancelMerge
  | artAddressClearBuffer | artAddressNoCommand | artPollReplyEmitted => cases hi

theorem step_sameButStaleRx : SameButStaleRx (step s) (step (withRx m s)) := by
  rcases step_cases s with ⟨hidle, he⟩ | ⟨w, rest, hops, he⟩
  · rw [he, step_of_idle (s := withRx m s) hidle]
    exact .next h
  · rw [he, step_of_cons (s := withRx m s) hops]
    exact exec_sameButStaleRx (s := { s with hostOps := rest }) h (decodeWord_isHostOp w)

end

/-- Settles O36: the steps of the two states are the same but for stale bytes. -/
theorem staleReceiveBytesAreNeverObserved : Obligations.StaleReceiveBytesAreNeverObserved := by
  intro s m hagree
  have hsame : SameButStaleRx (step s) (step { s with rx := m }) := step_sameButStaleRx hagree
  refine ⟨fun t hstep => ?next, fun r hstep => ?refused⟩ <;> rw [hstep] at hsame
  case next => exact hsame.exists_of_next
  case refused => exact hsame.eq_of_refused

end Sys2Proof.Machine
end

section
/-! The state after reset (R271) and the two hazards of the merge engine's source slots (R278, R282). -/

namespace Sys2Proof.Machine

/-! ## Reset -/

/-- The template after reset as the sixteen bytes it begins with; every byte after them is 0 (R271). -/
theorem templateAtReset_read (i : Nat) :
    templateAtReset.read i = ([0x41#8, 0x72#8, 0x74#8, 0x2D#8, 0x4E#8, 0x65#8, 0x74#8, 0x00#8, 0x00#8, 0x21#8, 0#8, 0#8,
        0#8, 0#8, 0x36#8, 0x19#8] : List Byte).getD i 0#8 :=
  read_cellsFrom 0 [0x41#8, 0x72#8, 0x74#8, 0x2D#8, 0x4E#8, 0x65#8, 0x74#8, 0x00#8, 0x00#8, 0x21#8, 0#8, 0#8,
    0#8, 0#8, 0x36#8, 0x19#8] i (Nat.zero_le i)

/-- Every CSR reads 0 after reset (R271). -/
theorem csrValue_reset (idx : Index) : csrValue idx State.reset = 0 := by
  unfold csrValue
  split <;> rfl

/-- `RX_READ` gives 0 at every index after reset, because `RX_LEN` is 0 (R226, R271). -/
theorem exec_rxRead_reset (idx : Index) : exec (.rxRead idx) State.reset = .next { State.reset with rdata := 0 } :=
  (rxReadGivesTheDatagramByte State.reset idx).2 (Nat.zero_le _)

/-- Settles O1, element by element. -/
theorem resetHoldsTheSpecsValues : Obligations.ResetHoldsTheSpecsValues := by
  refine ⟨rfl, rfl, rfl, rfl, rfl, rfl, rfl, rfl, rfl, rfl, rfl, rfl, rfl, rfl, rfl, fun _ => ⟨rfl, rfl, rfl⟩, rfl,
    exec_rxRead_reset, templateAtReset_read, rfl, fun idx => ?_⟩
  rw [exec_csrRead, csrValue_reset]

/-! ## Hazards of the source slots -/

/-- Settles O59: source A takes the frame, which zeroes `B`, so the maximum is the stale level of `A`. -/
theorem staleLevelsReturnAfterClearBuffer : Obligations.StaleLevelsReturnAfterClearBuffer := by
  intro s t sender z front tail body hinv hen hfront haccepted hclear hfits
  obtain ⟨t', hexec, hA, _, _, _, _, ha, _, _, hslotsB, _, _, _, hframe, _⟩ :=
    clearBufferBlacksOut s sender front tail hfront haccepted
  obtain rfl := Host.Outcome.next.inj (hexec.symm.trans hclear)
  obtain ⟨u, hu, _, _, hua, hub, huslotsA, huslotsB, houtSlots, hmax, _⟩ :=
    sourceAFrameIsMerged t' z body hfits (hframe.htpEn.trans hen) (.inl hA)
  rw [huslotsA, huslotsB, hslotsB] at houtSlots
  refine ⟨u, hu, houtSlots, fun i hlo hhi => ?_⟩
  have hi : i < 512 := hhi.trans_le hinv.slotsB_le
  have hlevelA : u.a.read i = s.a.read i := by rw [hua, if_neg (Nat.not_lt.2 hlo), ha]
  have hlevelB : u.b.read i = 0 := by rw [hub, if_pos ⟨hA, hi⟩]
  apply BitVec.eq_of_toNat_eq
  rw [hmax i (by omega), hlevelA, hlevelB]
  exact Nat.max_eq_left (Nat.zero_le _)

/-- In the merge state `BOnly` source A is unbound (R27). -/
theorem srcA_of_bOnly {s : State} (h : s.mergeState = .bOnly) : s.srcA = none := by
  cases hA : s.srcA with
  | none => rfl
  | some x =>
    unfold State.mergeState at h
    rw [hA] at h
    cases hB : s.srcB <;> rw [hB] at h <;> cases h

/-- Settles O60: source A takes the frame of the sender that B holds, and both slots then refuse every other sender. -/
theorem oneAddressInBothSlots : Obligations.OneAddressInBothSlots := by
  intro s x body hmerge hen hB hfits
  have hA := srcA_of_bOnly hmerge
  obtain ⟨t, ht, htA, htB, _, htb, htslotsA, htslotsB, houtSlots, _, _, _, _, hframe, _⟩ :=
    sourceAFrameIsMerged s x body hfits hen (.inl hA)
  rw [hB] at htB
  rw [htslotsA, htslotsB] at houtSlots
  refine ⟨t, ht, htA, htB, fun i hi => ?_, htslotsB, houtSlots, fun y body' hy hfits' => ?_⟩
  · rw [htb, if_pos ⟨hA, hi⟩]
  · exact (otherSendersAreDropped t y x body' hfits' htA hy.symm).1 (hframe.htpEn.trans hen) ⟨x, htB, hy.symm⟩

end Sys2Proof.Machine
end

section
/-! The `INGEST` that finds the port empty (R95, R227; entry 6). -/

namespace Sys2Proof.Machine

/-- An `INGEST` at an empty port finishes with result 0 in the state it ran in (entry 6). -/
theorem exec_ingest_of_empty {s : State} (hport : s.port = []) : exec (.ingest true) s = .next (finish (false, s)) :=
  execIngest_of_empty hport

/-- Settles O27: the end of an `INGEST` with result 0 writes `RESULT` and the read datum only. -/
theorem ingestAtAnEmptyPort : Obligations.IngestAtAnEmptyPort := by
  intro s hport
  have hfinish : finish (false, s) = { s with result := false, rdata := 0 } := rfl
  rw [exec_ingest_of_empty hport, hfinish]

end Sys2Proof.Machine
end
